-- ==== Sys2Proof/Word.lean ====
section
/-! DEFINITION. The plain data of the block: bit-vector widths (00_scope.md R5, R6), the three-valued
rotation delta (30_encoding.md R47), and the raw form in which one operation is presented to the block. -/

namespace Sys2Proof

/-- A byte, as it carries a step word in a written trace (30_encoding.md R55) or a sample (R46). -/
abbrev Byte := BitVec 8

/-- An EncoderSample, SAMPLE_WIDTH = 4 bits: bit 3 SW, bit 2 BTN, bit 1 B, bit 0 A (R45). -/
abbrev Sample := BitVec 4

/-- The storage of SEL: SEL_WIDTH = 8 bits, signed two's complement (R48). -/
abbrev SelWord := BitVec 8

/-- The step word W[6:0] = rst, tick, clr, enc_in[3:0] from the most significant bit down (R49). -/
abbrev StepWord := BitVec 7

/-- The quadrature index q = pB, pA, sB, sA from the most significant bit down (R50). -/
abbrev QuadIndex := BitVec 4

/-- The button index b = pBTN, sBTN from the most significant bit down (R51). -/
abbrev ButtonIndex := BitVec 2

/-- RotationDelta (R47). Exactly three values, so that the reserved code 0b10 cannot be written down
(R52 item 3). -/
inductive Delta where
  /-- +1, clockwise -/
  | cw
  /-- 0, no change -/
  | zero
  /-- -1, counter-clockwise -/
  | ccw
  deriving DecidableEq, Repr

/-- What a read operation samples (30_encoding.md R49, second table). -/
inductive OutPort where
  /-- `sel_o[7:0]` -/
  | selO
  /-- `latch_o` -/
  | latchO
  /-- `smp_o[3:0]` -/
  | smpO
  /-- `smp_o[2]` -/
  | smpBtn
  /-- `smp_o[3]` -/
  | smpSw
  deriving DecidableEq, Repr

/-- Which line of a sample a field extractor reads (40_decode.md R60 to R63). -/
inductive Line where
  | a
  | b
  | btn
  | sw
  deriving DecidableEq, Repr

/-- One entry of a stimulus trace (10_state.md R15, 30_encoding.md R55): one operation in the raw form in
which it is presented. The constructors are the formats of 30_encoding.md section 6. Only `ctl` and
`ctlKeep` are wires of the block; the other formats have no selecting word, and their tags are the
model's own. DESIGN CHOICE, safe: log entry 5. -/
inductive Stimulus where
  /-- CTL: the seven input bits of one clock cycle (R49). -/
  | ctl (w : StepWord)
  /-- CTL, the step word 0, tick, 1, enc_in, whose issuer keeps the value of `latch_o` of that cycle: the
  form in which TAKE is issued (R49, R96, R98). -/
  | ctlKeep (tick : Bool) (encIn : Sample)
  /-- OUT: an output port is sampled (R49). -/
  | out (port : OutPort)
  /-- FX: a field extractor applied to a sample (R60 to R63). -/
  | fx (line : Line) (v : Sample)
  /-- QD: RISE_A evaluated at a quadrature index (R64). -/
  | riseA (q : QuadIndex)
  /-- QD: ROT evaluated at a quadrature index; one of four patterns matches (R50). -/
  | rot (q : QuadIndex)
  /-- BP: PRESS evaluated at a button index; one of three patterns matches (R51). -/
  | press (b : ButtonIndex)
  deriving DecidableEq, Repr

end Sys2Proof
end

