-- ==== Sys2Proof/Syntax.lean ====
section
/-! DEFINITION. The operations of the block, which stand where a processor has instructions (00_scope.md R8,
30_encoding.md R49): one constructor per row of spec/opcode_table.json. -/

namespace Sys2Proof

/-- The operations. The first six are the rows of format CTL, then OUT, FX, QD and BP. -/
inductive Instr where
  /-- RESET (70_reset_and_hazards.md R140) -/
  | reset
  /-- HOLD (42_consumer.md R97) -/
  | hold
  /-- CLRLATCH (R95) -/
  | clrLatch
  /-- TAKE (R96). `none`: on a CLRLATCH word. `some s`: on a TICKCLR word with sample `s`, the form the
  table's note gives it when tick = 1 (R98). Log entry 6. -/
  | take (tick : Option Sample)
  /-- TICK(s) (41_sampler.md R70) -/
  | tick (s : Sample)
  /-- TICKCLR(s) (R98) -/
  | tickClr (s : Sample)
  /-- RDSEL (R90) -/
  | rdSel
  /-- RDLATCH (R91) -/
  | rdLatch
  /-- RDSMP (R92) -/
  | rdSmp
  /-- RDBTN (R93) -/
  | rdBtn
  /-- RDSW (R94) -/
  | rdSw
  /-- PINA (40_decode.md R60) -/
  | pinA (v : Sample)
  /-- PINB (R61) -/
  | pinB (v : Sample)
  /-- BTN (R62) -/
  | btn (v : Sample)
  /-- SW (R63) -/
  | sw (v : Sample)
  /-- RISE_A (R64): 1 on the pattern x0x1, else 0 -/
  | riseA (q : QuadIndex)
  /-- ROT.CW, the pattern x011 (R50, R65) -/
  | rotCw (q : QuadIndex)
  /-- ROT.CCW, the pattern x001 (R50, R65) -/
  | rotCcw (q : QuadIndex)
  /-- ROT.NONE_ALOW, the pattern xxx0 (R50, R65) -/
  | rotNoneALow (q : QuadIndex)
  /-- ROT.NONE_AHIGH, the pattern x1x1 (R50, R65) -/
  | rotNoneAHigh (q : QuadIndex)
  /-- PRESS.EDGE, the pattern 01 (R51, R67) -/
  | pressEdge (b : ButtonIndex)
  /-- PRESS.NONE_LOW, the pattern x0 (R51, R67) -/
  | pressNoneLow (b : ButtonIndex)
  /-- PRESS.NONE_HELD, the pattern 11 (R51, R67) -/
  | pressNoneHeld (b : ButtonIndex)
  deriving DecidableEq, Repr

end Sys2Proof
end

