-- ==== Sys2Proof/WellFormed.lean ====
section
/-! DEFINITION. Which terms of Instr are rows of the opcode table: an operation that stands for a decode
pattern carries an index that the pattern matches (30_encoding.md R50, R51). Every other operation is
well formed with any operand: no sample and no step word is illegal (R52). -/

namespace Sys2Proof

/-- The mask and match test of the opcode table: `w & mask = match` (30_encoding.md section 6). -/
abbrev matchesRow {n : Nat} (mask value w : BitVec n) : Bool := (w &&& mask) == value

/-- The check of one operation against its row. -/
def Instr.wellFormed : Instr → Bool
  | .reset => true
  | .hold => true
  | .clrLatch => true
  | .take _ => true
  | .tick _ => true
  | .tickClr _ => true
  | .rdSel => true
  | .rdLatch => true
  | .rdSmp => true
  | .rdBtn => true
  | .rdSw => true
  | .pinA _ => true
  | .pinB _ => true
  | .btn _ => true
  | .sw _ => true
  | .riseA _ => true
  | .rotCw q => matchesRow 0b0111#4 0b0011#4 q
  | .rotCcw q => matchesRow 0b0111#4 0b0001#4 q
  | .rotNoneALow q => matchesRow 0b0001#4 0b0000#4 q
  | .rotNoneAHigh q => matchesRow 0b0101#4 0b0101#4 q
  | .pressEdge b => matchesRow 0b11#2 0b01#2 b
  | .pressNoneLow b => matchesRow 0b01#2 0b00#2 b
  | .pressNoneHeld b => matchesRow 0b11#2 0b11#2 b

end Sys2Proof
end

