-- ==== Sys2Proof/Decode.lean ====
section
/-! DEFINITION. Decoding one presented operation (30_encoding.md R49 to R52) and the encoder beside it. The
decoder is total: no step word, sample or index is illegal (R52, R53). Only a byte that carries a step
word can be refused, by name. -/

namespace Sys2Proof

/-- The commanded operation that a step word selects by W[6:4] alone (R49); the ignored bits are dropped. -/
def decodeStepWord (w : StepWord) : Instr :=
  if matchesRow 0x40#7 0x40#7 w then .reset
  else if matchesRow 0x70#7 0x00#7 w then .hold
  else if matchesRow 0x70#7 0x10#7 w then .clrLatch
  else if matchesRow 0x70#7 0x20#7 w then .tick (w.extractLsb' 0 4)
  else .tickClr (w.extractLsb' 0 4)

/-- The ROT row that matches a quadrature index (R50). -/
def decodeRot (q : QuadIndex) : Instr :=
  if matchesRow 0b0111#4 0b0011#4 q then .rotCw q
  else if matchesRow 0b0111#4 0b0001#4 q then .rotCcw q
  else if matchesRow 0b0001#4 0b0000#4 q then .rotNoneALow q
  else .rotNoneAHigh q

/-- The PRESS row that matches a button index (R51). -/
def decodePress (b : ButtonIndex) : Instr :=
  if matchesRow 0b11#2 0b01#2 b then .pressEdge b
  else if matchesRow 0b01#2 0b00#2 b then .pressNoneLow b
  else .pressNoneHeld b

/-- The operation that one entry of a stimulus trace presents. -/
def decode : Stimulus → Instr
  | .ctl w => decodeStepWord w
  | .ctlKeep false _ => .take none
  | .ctlKeep true encIn => .take (some encIn)
  | .out .selO => .rdSel
  | .out .latchO => .rdLatch
  | .out .smpO => .rdSmp
  | .out .smpBtn => .rdBtn
  | .out .smpSw => .rdSw
  | .fx .a v => .pinA v
  | .fx .b v => .pinB v
  | .fx .btn v => .btn v
  | .fx .sw v => .sw v
  | .riseA q => .riseA q
  | .rot q => decodeRot q
  | .press b => decodePress b

/-- The trace entry of an operation, every ignored bit 0 (R55). -/
def encode : Instr → Stimulus
  | .reset => .ctl 0x40#7
  | .hold => .ctl 0x00#7
  | .clrLatch => .ctl 0x10#7
  | .take none => .ctlKeep false 0#4
  | .take (some s) => .ctlKeep true s
  | .tick s => .ctl (0b010#3 ++ s)
  | .tickClr s => .ctl (0b011#3 ++ s)
  | .rdSel => .out .selO
  | .rdLatch => .out .latchO
  | .rdSmp => .out .smpO
  | .rdBtn => .out .smpBtn
  | .rdSw => .out .smpSw
  | .pinA v => .fx .a v
  | .pinB v => .fx .b v
  | .btn v => .fx .btn v
  | .sw v => .fx .sw v
  | .riseA q => .riseA q
  | .rotCw q => .rot q
  | .rotCcw q => .rot q
  | .rotNoneALow q => .rot q
  | .rotNoneAHigh q => .rot q
  | .pressEdge b => .press b
  | .pressNoneLow b => .press b
  | .pressNoneHeld b => .press b

/-- Every ignored bit of the entry is 0, as the notation of R55 writes it: all of W[5:0] beside rst = 1,
enc_in beside tick = 0. -/
def ignoredBitsZero : Stimulus → Bool
  | .ctl w =>
    if matchesRow 0x40#7 0x40#7 w then w == 0x40#7
    else if matchesRow 0x20#7 0x00#7 w then matchesRow 0x0F#7 0x00#7 w
    else true
  | .ctlKeep tick encIn => tick || encIn == 0#4
  | .out _ => true
  | .fx _ _ => true
  | .riseA _ => true
  | .rot _ => true
  | .press _ => true

/-- The step word on the wires of an entry, for the formats that have one (R49): TAKE's is that of CLRLATCH
or TICKCLR (R96). -/
def wireWord : Stimulus → Option StepWord
  | .ctl w => some w
  | .ctlKeep tick encIn => some (BitVec.ofBool false ++ BitVec.ofBool tick ++ BitVec.ofBool true ++ encIn)
  | .out _ => none
  | .fx _ _ => none
  | .riseA _ => none
  | .rot _ => none
  | .press _ => none

/-- Why bytes are not read as a step word. -/
inductive DecodeReject where
  /-- There is no byte to read. -/
  | noByte
  /-- Bit 7 of the byte is 1: a step word has seven bits (R53). DESIGN CHOICE, safe: log entry 7. -/
  | bitSevenSet
  deriving DecidableEq, Repr

/-- Read one step word from the bytes of a written trace (R55 writes each in one byte). -/
def stimulusOfBytes : List Byte → Except DecodeReject (Stimulus × List Byte)
  | [] => .error .noByte
  | b :: rest => if b.getLsbD 7 then .error .bitSevenSet else .ok (.ctl (b.extractLsb' 0 7), rest)

/-- Read one operation from the bytes of a written trace. -/
def decodeBytes (bytes : List Byte) : Except DecodeReject (Instr × List Byte) :=
  match stimulusOfBytes bytes with
  | .error e => .error e
  | .ok (stim, rest) => .ok (decode stim, rest)

/-- The trace entry that a word of the opcode table stands for, by the table's width: seven bits (one byte)
are a step word, four a quadrature index, two a button index. Log entry 5. -/
def stimulusOfTableWord (nbits w : Nat) : Option Stimulus :=
  if nbits = 2 then (if w < 4 then some (.press (BitVec.ofNat 2 w)) else none)
  else if nbits = 4 then (if w < 16 then some (.rot (BitVec.ofNat 4 w)) else none)
  else if nbits = 7 ∨ nbits = 8 then
    if w < 256 then
      match stimulusOfBytes [BitVec.ofNat 8 w] with
      | .ok (stim, _) => some stim
      | .error _ => none
    else none
  else none

/-- The operation that the decoder reads from a word of the opcode table. A four-bit index and a two-bit
index padded to a byte cannot be told from a step word, and are read as one. -/
def decodeTableWord (nbits w : Nat) : Option Instr :=
  (stimulusOfTableWord nbits w).map decode

end Sys2Proof
end

