-- ==== Sys2Proof/Config.lean ====
section
/-! DEFINITION. The implementation parameters of 00_scope.md R5. Those with a stated value are fixed at it
(DESIGN CHOICE, log entry 8); the OPEN ones are arguments of the definitions that use them. -/

namespace Sys2Proof.Config

/-- MAX = 7: the legal range of SEL is the closed range [0, MAX] (R5). -/
abbrev selMax : Int := 7

/-- NSLOTS = MAX + 1, the number of menu slots (R5). -/
abbrev numSlots : Nat := 8

/-- BIT_A (R5, R45). -/
abbrev bitA : Nat := 0

/-- BIT_B (R5, R45). -/
abbrev bitB : Nat := 1

/-- BIT_BTN (R5, R45). -/
abbrev bitBtn : Nat := 2

/-- BIT_SW (R5, R45). -/
abbrev bitSw : Nat := 3

/-- SEL_RESET (R5, R18). -/
abbrev selReset : SelWord := 0#8

/-- LATCH_RESET (R5, R18). -/
abbrev latchReset : Bool := false

/-- PREV_RESET (R5, R18). -/
abbrev prevReset : Sample := 0b0000#4

/-- T_SAMPLE, nominal, in microseconds (R5, R156). No rule of the block depends on it (R157). -/
abbrev sampleMicros : Nat := 1000

/-- The only constraint on the OPEN parameter F_CLK (in Hz): at least one clock edge per tick,
T_SAMPLE * F_CLK >= 1 (R5). No rule of the block depends on it. -/
abbrev clockLegal (fClk : Nat) : Prop := 1000000 ≤ sampleMicros * fClk

/-- The only constraint on the OPEN parameter MARKER_UNSET: any value outside [0, MAX] (R5, R106). -/
abbrev markerLegal (unset : Int) : Prop := unset < 0 ∨ selMax < unset

end Sys2Proof.Config
end

