-- ==== Sys2Proof/Machine/State.lean ====
section
/-! DEFINITION. The state of the machine: the block's three registers (10_state.md R10), and beside them what
the model needs to run a trace of operations (log entry 1). -/

namespace Sys2Proof.Machine

/-- The complete architectural state of the block: 13 bits (10_state.md R10). -/
structure Block where
  /-- SEL, signed two's complement (R11) -/
  sel : SelWord
  /-- LATCH, true = a press is pending (R12) -/
  latch : Bool
  /-- PREV, the sample the most recent TICK read (R13) -/
  prev : Sample
  deriving DecidableEq, Repr

/-- A value that an operation hands to the agent that performed it (00_scope.md R7 `return v`). One value
per operation: none returns two registers at once (20_memory.md R37). -/
inductive Returned where
  /-- one bit: RDLATCH, RDBTN, RDSW, TAKE, PINA, PINB, BTN, SW, RISE_A, PRESS -/
  | bit (v : Bool)
  /-- the eight bits of `sel_o`: RDSEL -/
  | sel (v : SelWord)
  /-- the four bits of `smp_o`: RDSMP -/
  | sample (v : Sample)
  /-- a rotation delta: ROT -/
  | delta (d : Delta)
  deriving DecidableEq, Repr

/-- The machine: the block, and outside it the stimulus still to come and the value just returned. The last
two are the model's own (DESIGN CHOICE, log entry 1) and no state of the block (R17). -/
structure State where
  /-- the block's registers -/
  block : Block
  /-- the operations the agents will perform, in the one total order of 20_memory.md R35, first first -/
  trace : List Stimulus
  /-- what the operation just performed returned; none if it returns nothing -/
  ret : Option Returned
  deriving DecidableEq, Repr

/-- No reason to stop exists: the block raises no exception and a model gives it no fault outcome
(60_exceptions.md R120, 91_not_in_source.md N23). -/
inductive Fault where
  deriving DecidableEq, Repr

/-- Why an operation has no next state. No operation of this model answers so: every operation is total (R8). -/
inductive Refusal where
  /-- Raised by exec for an operation that has no meaning in the model yet; no arm does. Safe. -/
  | notModelled (mnemonic : String)
  deriving DecidableEq, Repr

/-- The registers right after RESET (10_state.md R18). -/
def Block.reset : Block :=
  { sel := Config.selReset, latch := Config.latchReset, prev := Config.prevReset }

/-- The machine right after reset: the registers as R18 says; no stimulus given and nothing returned yet
(DESIGN CHOICE, log entry 1). -/
def State.reset : State := { block := Block.reset, trace := [], ret := none }

end Sys2Proof.Machine
end

