-- ==== Sys2Proof/Machine/Operands.lean ====
section
/-! DEFINITION. How operands are cut from samples and assembled (30_encoding.md R45 to R47, R50, R51, R54;
40_decode.md R60 to R63). -/

namespace Sys2Proof.Machine

/-- PINA(v) = v[0], the level of channel A (R60). -/
def pinA (v : Sample) : Bool := v.getLsbD Config.bitA

/-- PINB(v) = v[1], the level of channel B (R61). -/
def pinB (v : Sample) : Bool := v.getLsbD Config.bitB

/-- BTN(v) = v[2], the level of the button line (R62). -/
def btn (v : Sample) : Bool := v.getLsbD Config.bitBtn

/-- SW(v) = v[3], the level of the switch line (R63). -/
def sw (v : Sample) : Bool := v.getLsbD Config.bitSw

/-- The sample in a byte is byte[3:0]; byte[7:4] carries no meaning (R46). -/
def sampleOfByte (b : Byte) : Sample := b.extractLsb' 0 4

/-- The sample that four line levels make (R45). -/
def sampleOfLines (swLine btnLine b a : Bool) : Sample :=
  BitVec.ofBool swLine ++ BitVec.ofBool btnLine ++ BitVec.ofBool b ++ BitVec.ofBool a

/-- q = pB, pA, sB, sA for the current sample `s` and the previous sample `p` (R50). -/
def quadIndex (s p : Sample) : QuadIndex :=
  BitVec.ofBool (pinB p) ++ BitVec.ofBool (pinA p) ++ BitVec.ofBool (pinB s) ++ BitVec.ofBool (pinA s)

/-- b = pBTN, sBTN for the current sample `s` and the previous sample `p` (R51). -/
def buttonIndex (s p : Sample) : ButtonIndex := BitVec.ofBool (btn p) ++ BitVec.ofBool (btn s)

/-- The delta as a mathematical value (R47). -/
def deltaInt : Delta → Int
  | .cw => 1
  | .zero => 0
  | .ccw => -1

/-- The delta's 2-bit two's complement code (R47). -/
def deltaCode : Delta → BitVec 2
  | .cw => 0b01#2
  | .zero => 0b00#2
  | .ccw => 0b11#2

/-- The delta of a 2-bit code; the reserved code 0b10 is none (R47, R52 item 3). -/
def deltaOfCode (c : BitVec 2) : Option Delta :=
  if c = 0b00#2 then some .zero
  else if c = 0b01#2 then some .cw
  else if c = 0b11#2 then some .ccw
  else none

/-- sext_8(d), the delta widened to SEL_WIDTH (R47, R54). -/
def deltaExtended (d : Delta) : SelWord := (deltaCode d).signExtend 8

end Sys2Proof.Machine
end

