-- ==== Sys2Proof/Machine/Flags.lean ====
section
/-! DEFINITION. The decode functions QDEC and BPRESS (40_decode.md R64 to R67), as functions of the two samples
and as tables over their index (30_encoding.md R50, R51), and the one flag computation of the block,
LATCH's (41_sampler.md R72). The CURRENT sample is always the first argument (90_conflicts.md C4). -/

namespace Sys2Proof.Machine

/-- RISE_A(s, p): channel A was 0 and is now 1 (R64). -/
def riseA (s p : Sample) : Bool := !pinA p && pinA s

/-- ROT(s, p): on a rise of A, the level of B in the current sample gives the direction (R65). -/
def rot (s p : Sample) : Delta :=
  if riseA s p then (if pinB s then .cw else .ccw) else .zero

/-- PRESS(s, p): the button was 0 and is now 1 (R67). -/
def press (s p : Sample) : Bool := !btn p && btn s

/-- RISE_A over the quadrature index: the pattern x0x1 (table row RISE_A). -/
def riseAOfIndex (q : QuadIndex) : Bool := matchesRow 0b0101#4 0b0001#4 q

/-- ROT over the quadrature index, by the patterns of R50. -/
def rotOfIndex (q : QuadIndex) : Delta :=
  if matchesRow 0b0111#4 0b0011#4 q then .cw
  else if matchesRow 0b0111#4 0b0001#4 q then .ccw
  else .zero

/-- PRESS over the button index: the pattern 01 (R51). -/
def pressOfIndex (b : ButtonIndex) : Bool := matchesRow 0b11#2 0b01#2 b

/-- LATCH after a TICK: LATCH or PRESS (R72). -/
def latchNext (latch pressed : Bool) : Bool := latch || pressed

end Sys2Proof.Machine
end

