-- ==== Sys2Proof/Machine/Ops.lean ====
section
/-! DEFINITION. The shared operations over the block's registers. There is no memory (20_memory.md R30) and no
exception to take or return from (60_exceptions.md R120, R126, R127), so no operation for either. -/

namespace Sys2Proof.Machine

/-- SEL after a TICK with delta `d`: the five tests of 41_sampler.md R73 in their order. Comparisons and the
sum are over the integers, and a value is stored only where it fits (R6). -/
def selNext (sel : SelWord) (d : Delta) : SelWord :=
  if sel.toInt < 0 then 0#8
  else if Config.selMax < sel.toInt then BitVec.ofInt 8 Config.selMax
  else if sel.toInt + deltaInt d < 0 then sel
  else if Config.selMax < sel.toInt + deltaInt d then sel
  else BitVec.ofInt 8 (sel.toInt + deltaInt d)

/-- Step (b) of a TICK alone: LATCH set (R72). -/
def latchStep (s : Sample) (b : Block) : Block := { b with latch := latchNext b.latch (press s b.prev) }

/-- Step (c) of a TICK alone: SELCTR update (R73). -/
def selStep (s : Sample) (b : Block) : Block := { b with sel := selNext b.sel (rot s b.prev) }

/-- Step (d) of a TICK alone: PREV update (R74). -/
def prevStep (s : Sample) (b : Block) : Block := { b with prev := s }

/-- TICK(s): the three writes computed from the registers before it and taking effect together (R70). -/
def tickBlock (s : Sample) (b : Block) : Block :=
  { sel := selNext b.sel (rot s b.prev)
    latch := latchNext b.latch (press s b.prev)
    prev := s }

/-- CLRLATCH: LATCH <- 0 (42_consumer.md R95). -/
def clearLatch (b : Block) : Block := { b with latch := false }

/-- TICKCLR(s): the clear first, then the tick, committed at one edge (R98). -/
def tickClrBlock (s : Sample) (b : Block) : Block := tickBlock s (clearLatch b)

/-- RESET: all three registers, whatever they held (70_reset_and_hazards.md R140). -/
def resetBlock (_ : Block) : Block := Block.reset

/-- The end of every operation: its register writes together, and the value it hands back (00_scope.md R7). -/
def State.finish (s : State) (b : Block) (r : Option Returned) : State := { s with block := b, ret := r }

/-- An operation that writes no register and hands back a value. -/
def State.answer (s : State) (r : Returned) : State := s.finish s.block (some r)

end Sys2Proof.Machine
end

