-- ==== Sys2Proof/Machine/Button.lean ====
section
/-! DEFINITION. The meanings of the rows of format BP: PRESS at a button index (40_decode.md R67;
30_encoding.md R51), a pure function that reads and writes no register. Log entry 4. -/

namespace Sys2Proof.Machine

/-- PRESS.EDGE: PRESS at the index 01 (R67). -/
def execPressEdge (b : ButtonIndex) (s : State) : Host.Outcome State Fault Refusal :=
  .next (s.answer (.bit (pressOfIndex b)))

/-- PRESS.NONE_LOW: PRESS at an index of the pattern x0 (R67). -/
def execPressNoneLow (b : ButtonIndex) (s : State) : Host.Outcome State Fault Refusal :=
  .next (s.answer (.bit (pressOfIndex b)))

/-- PRESS.NONE_HELD: PRESS at the index 11 (R67). -/
def execPressNoneHeld (b : ButtonIndex) (s : State) : Host.Outcome State Fault Refusal :=
  .next (s.answer (.bit (pressOfIndex b)))

end Sys2Proof.Machine
end

