-- ==== Sys2Proof/Machine/Ctl.lean ====
section
/-! DEFINITION. The meanings of the rows of format CTL: the commanded operations (30_encoding.md R49). -/

namespace Sys2Proof.Machine

/-- RESET (70_reset_and_hazards.md R140). -/
def execReset (s : State) : Host.Outcome State Fault Refusal :=
  .next (s.finish (resetBlock s.block) none)

/-- HOLD: every register keeps its value, enc_in is ignored (42_consumer.md R97). -/
def execHold (s : State) : Host.Outcome State Fault Refusal :=
  .next (s.finish s.block none)

/-- CLRLATCH (R95). -/
def execClrLatch (s : State) : Host.Outcome State Fault Refusal :=
  .next (s.finish (clearLatch s.block) none)

/-- TAKE: LATCH as it was before the edge is returned and cleared, indivisibly (R96); on a TICKCLR word the
tick follows the clear at the same edge (R98). -/
def execTake (tick : Option Sample) (s : State) : Host.Outcome State Fault Refusal :=
  match tick with
  | none => .next (s.finish (clearLatch s.block) (some (.bit s.block.latch)))
  | some v => .next (s.finish (tickClrBlock v s.block) (some (.bit s.block.latch)))

/-- TICK(s) (41_sampler.md R70 to R74). -/
def execTick (v : Sample) (s : State) : Host.Outcome State Fault Refusal :=
  .next (s.finish (tickBlock v s.block) none)

/-- TICKCLR(s): clear, then tick; a press of that very edge is kept (R98). -/
def execTickClr (v : Sample) (s : State) : Host.Outcome State Fault Refusal :=
  .next (s.finish (tickClrBlock v s.block) none)

end Sys2Proof.Machine
end

