-- ==== Sys2Proof/Machine/Fx.lean ====
section
/-! DEFINITION. The meanings of the rows of format FX: the field extractors (40_decode.md R60 to R63), pure
functions that read and write no register. Evaluated on their own: log entry 4. -/

namespace Sys2Proof.Machine

/-- PINA(v) (R60). -/
def execPinA (v : Sample) (s : State) : Host.Outcome State Fault Refusal :=
  .next (s.answer (.bit (pinA v)))

/-- PINB(v) (R61). -/
def execPinB (v : Sample) (s : State) : Host.Outcome State Fault Refusal :=
  .next (s.answer (.bit (pinB v)))

/-- BTN(v) (R62). -/
def execBtn (v : Sample) (s : State) : Host.Outcome State Fault Refusal :=
  .next (s.answer (.bit (btn v)))

/-- SW(v) (R63). -/
def execSw (v : Sample) (s : State) : Host.Outcome State Fault Refusal :=
  .next (s.answer (.bit (sw v)))

end Sys2Proof.Machine
end

