-- ==== Sys2Proof/Machine/Out.lean ====
section
/-! DEFINITION. The meanings of the rows of format OUT: the consumer's reads (42_consumer.md R90 to R94). None
has a side effect on a register (20_memory.md R34). -/

namespace Sys2Proof.Machine

/-- RDSEL: SEL, also when it is out of range (R90, 60_exceptions.md R121). -/
def execRdSel (s : State) : Host.Outcome State Fault Refusal :=
  .next (s.answer (.sel s.block.sel))

/-- RDLATCH: LATCH, which stays as it is (R91). -/
def execRdLatch (s : State) : Host.Outcome State Fault Refusal :=
  .next (s.answer (.bit s.block.latch))

/-- RDSMP: PREV, the last sample taken, not the live lines (R92). -/
def execRdSmp (s : State) : Host.Outcome State Fault Refusal :=
  .next (s.answer (.sample s.block.prev))

/-- RDBTN: the button level of the last sample (R93). -/
def execRdBtn (s : State) : Host.Outcome State Fault Refusal :=
  .next (s.answer (.bit (btn s.block.prev)))

/-- RDSW: the switch level of the last sample (R94). -/
def execRdSw (s : State) : Host.Outcome State Fault Refusal :=
  .next (s.answer (.bit (sw s.block.prev)))

end Sys2Proof.Machine
end

