-- ==== Sys2Proof/Machine/Quad.lean ====
section
/-! DEFINITION. The meanings of the rows of format QD: RISE_A and ROT at a quadrature index (40_decode.md R64,
R65; 30_encoding.md R50), pure functions that read and write no register. Log entry 4. -/

namespace Sys2Proof.Machine

/-- RISE_A: 1 on the pattern x0x1, else 0 (R64). -/
def execRiseA (q : QuadIndex) (s : State) : Host.Outcome State Fault Refusal :=
  .next (s.answer (.bit (riseAOfIndex q)))

/-- ROT.CW: ROT at an index of the pattern x011 (R65). -/
def execRotCw (q : QuadIndex) (s : State) : Host.Outcome State Fault Refusal :=
  .next (s.answer (.delta (rotOfIndex q)))

/-- ROT.CCW: ROT at an index of the pattern x001 (R65). -/
def execRotCcw (q : QuadIndex) (s : State) : Host.Outcome State Fault Refusal :=
  .next (s.answer (.delta (rotOfIndex q)))

/-- ROT.NONE_ALOW: ROT at an index of the pattern xxx0 (R65). -/
def execRotNoneALow (q : QuadIndex) (s : State) : Host.Outcome State Fault Refusal :=
  .next (s.answer (.delta (rotOfIndex q)))

/-- ROT.NONE_AHIGH: ROT at an index of the pattern x1x1 (R65). -/
def execRotNoneAHigh (q : QuadIndex) (s : State) : Host.Outcome State Fault Refusal :=
  .next (s.answer (.delta (rotOfIndex q)))

end Sys2Proof.Machine
end

