-- ==== Sys2Proof/Machine/Dispatch.lean ====
section
/-! DEFINITION. The one dispatch from an operation to its meaning. -/

namespace Sys2Proof.Machine

def exec (i : Instr) (s : State) : Host.Outcome State Fault Refusal :=
  match i with
  | .reset => Sys2Proof.Machine.execReset s
  | .hold => Sys2Proof.Machine.execHold s
  | .clrLatch => Sys2Proof.Machine.execClrLatch s
  | .take tick => Sys2Proof.Machine.execTake tick s
  | .tick v => Sys2Proof.Machine.execTick v s
  | .tickClr v => Sys2Proof.Machine.execTickClr v s
  | .rdSel => Sys2Proof.Machine.execRdSel s
  | .rdLatch => Sys2Proof.Machine.execRdLatch s
  | .rdSmp => Sys2Proof.Machine.execRdSmp s
  | .rdBtn => Sys2Proof.Machine.execRdBtn s
  | .rdSw => Sys2Proof.Machine.execRdSw s
  | .pinA v => Sys2Proof.Machine.execPinA v s
  | .pinB v => Sys2Proof.Machine.execPinB v s
  | .btn v => Sys2Proof.Machine.execBtn v s
  | .sw v => Sys2Proof.Machine.execSw v s
  | .riseA q => Sys2Proof.Machine.execRiseA q s
  | .rotCw q => Sys2Proof.Machine.execRotCw q s
  | .rotCcw q => Sys2Proof.Machine.execRotCcw q s
  | .rotNoneALow q => Sys2Proof.Machine.execRotNoneALow q s
  | .rotNoneAHigh q => Sys2Proof.Machine.execRotNoneAHigh q s
  | .pressEdge b => Sys2Proof.Machine.execPressEdge b s
  | .pressNoneLow b => Sys2Proof.Machine.execPressNoneLow b s
  | .pressNoneHeld b => Sys2Proof.Machine.execPressNoneHeld b s

end Sys2Proof.Machine
end

