-- ==== Sys2Proof/Machine/Step.lean ====
section
/-! DEFINITION. One step of the machine: the next operation of the trace is decoded and performed. One step is
one whole operation of the total order of 20_memory.md R35 (log entry 2). -/

namespace Sys2Proof.Machine

/-- Perform the first entry of the trace. With no entry left the block is given no command, which is a HOLD
(42_consumer.md R97; DEDUCED, log entry 3). -/
def step (s : State) : Host.Outcome State Fault Refusal :=
  match s.trace with
  | [] => exec .hold s
  | stim :: rest => exec (decode stim) { s with trace := rest }

/-- Put one word of the opcode table in front of the trace, so that the next step performs it. A word that
the decoder refuses leaves the trace as it is. -/
def State.withFetchWord (s : State) (nbits w : Nat) : State :=
  match stimulusOfTableWord nbits w with
  | some stim => { s with trace := stim :: s.trace }
  | none => s

end Sys2Proof.Machine
end

