-- ==== Sys2Proof/Machine/Trace.lean ====
section
/-! DEFINITION. Sequences of operations (20_memory.md R35), the events a sequence of samples holds
(41_sampler.md R82), and the trace notation of 30_encoding.md R55. -/

namespace Sys2Proof.Machine

/-- Perform operations one after another, each on the state the one before it left (R35). -/
def execAll : List Instr → State → Host.Outcome State Fault Refusal
  | [], s => .next s
  | i :: is, s =>
    match exec i s with
    | .next t => execAll is t
    | .fault r => .fault r
    | .refused r => .refused r

/-- One TICK per sample. -/
def ticks (ss : List Sample) : List Instr := ss.map .tick

/-- The deltas of a sequence of samples, the first compared with `p`, each later one with the one before
(R82). -/
def deltas : Sample → List Sample → List Delta
  | _, [] => []
  | p, s :: ss => rot s p :: deltas s ss

/-- The press events of a sequence of samples, compared in the same way (R82). -/
def presses : Sample → List Sample → List Bool
  | _, [] => []
  | p, s :: ss => press s p :: presses s ss

/-- How many deltas of a sequence are not 0. -/
def numEvents (ds : List Delta) : Nat := (ds.filter (fun d => d ≠ .zero)).length

/-- How many deltas of a sequence are `d`. -/
def numOf (d : Delta) (ds : List Delta) : Nat := (ds.filter (fun e => e = d)).length

/-- The samples of pseudo-operation `CW`, one clockwise detent from rest (R55). -/
def cwSamples : List Sample := [0b0010#4, 0b0011#4, 0b0001#4, 0b0000#4]

/-- The samples of pseudo-operation `CCW`, one counter-clockwise detent from rest (R55). -/
def ccwSamples : List Sample := [0b0001#4, 0b0011#4, 0b0010#4, 0b0000#4]

/-- The samples of pseudo-operation `PUSH` (R55). -/
def pushSamples : List Sample := [0b0100#4, 0b0000#4]

/-- The sample of pseudo-operation `IDLE` (R55). -/
def idleSamples : List Sample := [0b0000#4]

/-- `n * X` (R55). -/
def times (n : Nat) (samples : List Sample) : List Sample := (List.replicate n samples).flatten

end Sys2Proof.Machine
end

