-- ==== Sys2Proof/Machine/Consumer.lean ====
section
/-! DEFINITION. The reference consumer of 42_consumer.md section 4 (R104 to R107): INFORMATIVE, outside the block
(00_scope.md R4), no state of it (10_state.md R17). What the display, the LEDs and the durations would add is
left out (log entry 11). -/

namespace Sys2Proof.Machine

/-- What a menu slot does (R105). -/
inductive MenuAction where
  | ledsOff
  | ledsOn
  | flashLeds
  | heartSequence
  | displayInfo
  deriving DecidableEq, Repr

/-- The action of a slot (R105); a value outside [0, MAX] is no slot. -/
def menuAction (slot : SelWord) : Option MenuAction :=
  match slot.toInt with
  | 0 => some .ledsOff
  | 1 => some .ledsOn
  | 2 => some .ledsOn
  | 3 => some .flashLeds
  | 4 => some .flashLeds
  | 5 => some .heartSequence
  | 6 => some .heartSequence
  | 7 => some .displayInfo
  | _ => none

/-- The label of an action's slots (R105). -/
def actionLabel : MenuAction → String
  | .ledsOff => "TURN OFF LEDS"
  | .ledsOn => "TURN ON LEDS"
  | .flashLeds => "FLASH LEDS"
  | .heartSequence => "HEART SEQUENCE"
  | .displayInfo => "DISPLAY INFO"

/-- The label of a slot (R105). -/
def menuLabel (slot : SelWord) : Option String := (menuAction slot).map actionLabel

/-- CONSUMER_CLEAR_ORDER (00_scope.md R5, OPEN; default afterAction). -/
inductive ClearOrder where
  | afterAction
  | beforeAction
  deriving DecidableEq, Repr

/-- The dirty marker asks for a redraw: it differs from the selection read (R104, R106). -/
def needsRedraw (marker : Int) (selection : SelWord) : Bool := marker != selection.toInt

/-- The marker after one iteration: the selection drawn, or the sentinel after an action (R104, R106). -/
def markerAfter (unset : Int) (selection : SelWord) (pending : Bool) : Int :=
  if pending then unset else selection.toInt

/-- The operations of the other agents that fall in each gap between the consumer's own: any number, none
included, may fall in any of them (20_memory.md R35 item 4). -/
structure Interleaving where
  /-- between the read that chooses the label (and its redraw) and the look at LATCH -/
  afterDraw : List Instr
  /-- between the look at LATCH and the read that chooses the action's slot -/
  beforeSelect : List Instr
  /-- from that read to the end of the action -/
  inAction : List Instr
  /-- in the delay that ends the iteration -/
  inDelay : List Instr
  deriving DecidableEq, Repr

/-- How the iteration looks at LATCH: RDLATCH, or TAKE where it clears before the action (R104). -/
def latchLook : ClearOrder → Instr
  | .afterAction => .rdLatch
  | .beforeAction => .take none

/-- The clear that follows the action, if the order has one (R104). -/
def clearAfterAction : ClearOrder → List Instr
  | .afterAction => [.clrLatch]
  | .beforeAction => []

/-- The operations of one iteration of the main loop (R104), the consumer's in its program order (42_consumer.md
R100 item 4) with the other agents' among them, given whether a press was found pending. SEL is read once for
the label and afresh for the action (91_not_in_source.md N16), so the two reads may differ
(70_reset_and_hazards.md R155 item 1). -/
def iterationOps (order : ClearOrder) (pending : Bool) (g : Interleaving) : List Instr :=
  [.rdSel] ++ g.afterDraw ++ [latchLook order] ++
    (if pending then g.beforeSelect ++ [.rdSel] ++ g.inAction ++ clearAfterAction order else []) ++
    g.inDelay

/-- What one iteration did. -/
structure Iteration where
  /-- the machine at its end -/
  state : State
  /-- the selection whose label was on the display (R104 `v`) -/
  drawn : SelWord
  /-- whether the label was drawn anew -/
  redrew : Bool
  /-- the selection whose action was run (R104 `w`), if a press was found pending -/
  acted : Option SelWord
  /-- the marker at its end -/
  marker : Int
  deriving DecidableEq, Repr

/-- The state after a sequence of operations. -/
def stateAfter (ops : List Instr) (s : State) : Option State :=
  match execAll ops s with
  | .next t => some t
  | .fault _ => none
  | .refused _ => none

/-- The selection that the operation just performed returned. -/
def selReturned (s : State) : Option SelWord :=
  match s.ret with
  | some (.sel v) => some v
  | _ => none

/-- The bit that the operation just performed returned. -/
def bitReturned (s : State) : Option Bool :=
  match s.ret with
  | some (.bit v) => some v
  | _ => none

/-- One iteration of the main loop performed on the block (R104): the consumer decides by the values its own
operations return, never by the registers. -/
def runIteration (order : ClearOrder) (unset marker : Int) (g : Interleaving) (s : State) : Option Iteration :=
  (stateAfter [.rdSel] s).bind fun s1 =>
  (selReturned s1).bind fun drawn =>
  (stateAfter (g.afterDraw ++ [latchLook order]) s1).bind fun s2 =>
  (bitReturned s2).bind fun pending =>
  if pending then
    (stateAfter (g.beforeSelect ++ [.rdSel]) s2).bind fun s3 =>
    (selReturned s3).bind fun slot =>
    (stateAfter (g.inAction ++ clearAfterAction order ++ g.inDelay) s3).bind fun s4 =>
    some
      { state := s4, drawn := drawn, redrew := needsRedraw marker drawn, acted := some slot
        marker := markerAfter unset drawn true }
  else
    (stateAfter g.inDelay s2).bind fun s3 =>
    some
      { state := s3, drawn := drawn, redrew := needsRedraw marker drawn, acted := none
        marker := markerAfter unset drawn false }

end Sys2Proof.Machine
end

