-- ==== Sys2Proof/Machine/Cycle.lean ====
section
/-! DEFINITION. The block as a clocked circuit: its ports (20_memory.md R31), the step function CYCLE of one
clock cycle and its combinational form (42_consumer.md R99). The clock itself is the act of stepping. -/

namespace Sys2Proof.Machine

/-- The input ports of one clock cycle (R31). -/
structure Inputs where
  rst : Bool
  tick : Bool
  clr : Bool
  encIn : Sample
  deriving DecidableEq, Repr

/-- The output ports (R31). -/
structure Outputs where
  selO : SelWord
  latchO : BitVec 1
  smpO : Sample
  deriving DecidableEq, Repr

/-- The inputs that a step word W[6:0] stands for (30_encoding.md R49). -/
def inputsOfWord (w : StepWord) : Inputs :=
  { rst := w.getLsbD 6, tick := w.getLsbD 5, clr := w.getLsbD 4, encIn := w.extractLsb' 0 4 }

/-- The step word of a cycle's inputs (R49). -/
def wordOfInputs (i : Inputs) : StepWord :=
  BitVec.ofBool i.rst ++ BitVec.ofBool i.tick ++ BitVec.ofBool i.clr ++ i.encIn

/-- The outputs during a cycle show the registers before its edge (R36, R99). -/
def outputs (b : Block) : Outputs :=
  { selO := b.sel, latchO := BitVec.ofBool b.latch, smpO := b.prev }

/-- CYCLE: the registers after the edge (R99), in the priority of 60_exceptions.md R125. -/
def cycle (i : Inputs) (b : Block) : Block :=
  if i.rst then resetBlock b
  else if i.tick && i.clr then tickClrBlock i.encIn b
  else if i.tick then tickBlock i.encIn b
  else if i.clr then clearLatch b
  else b

/-- The combinational next state of R99, register by register. -/
def cycleCircuit (i : Inputs) (b : Block) : Block :=
  { sel := bif i.rst then 0#8 else bif i.tick then selNext b.sel (rot i.encIn b.prev) else b.sel
    latch := bif i.rst then false else (i.tick && press i.encIn b.prev) || (b.latch && !i.clr)
    prev := bif i.rst then 0b0000#4 else bif i.tick then i.encIn else b.prev }

/-- The registers after a sequence of cycles. -/
def runCycles : List Inputs → Block → Block
  | [], b => b
  | i :: is, b => runCycles is (cycle i b)

/-- The outputs shown in each cycle of a sequence: those of the registers before its edge (R36). -/
def cycleOutputs : List Inputs → Block → List Outputs
  | [], _ => []
  | i :: is, b => outputs b :: cycleOutputs is (cycle i b)

/-- The operations a cycle contributes to the total order of R35: HOLD dropped, TICKCLR split into its clear
and its tick (R99). -/
def opsOfCycle (i : Inputs) : List Instr :=
  if i.rst then [.reset]
  else if i.tick && i.clr then [.clrLatch, .tick i.encIn]
  else if i.tick then [.tick i.encIn]
  else if i.clr then [.clrLatch]
  else []

end Sys2Proof.Machine
end

