-- ==== Sys2Proof/Safety.lean ====
section
/-! DEFINITION. What counts as a safe state and a safe run: the range invariant (10_state.md R14), the rights of
the agents (10_state.md R20, 60_exceptions.md R128), and the consumer's obligation on clears
(42_consumer.md R100). -/

namespace Sys2Proof

/-- 0 <= SEL <= MAX (10_state.md R14). -/
abbrev SelInRange (b : Machine.Block) : Prop := 0 ≤ b.sel.toInt ∧ b.sel.toInt ≤ Config.selMax

/-- Who performs operations (00_scope.md R9). The environment performs none; it supplies samples. -/
inductive Agent where
  | integrator
  | sampler
  | consumer
  deriving DecidableEq, Repr

/-- The agents that take part in an operation (30_encoding.md R49, opcode table). A function evaluated on its
own (FX, QD, BP) and HOLD are nobody's. -/
def agents : Instr → List Agent
  | .reset => [.integrator]
  | .hold => []
  | .clrLatch => [.consumer]
  | .take none => [.consumer]
  | .take (some _) => [.sampler, .consumer]
  | .tick _ => [.sampler]
  | .tickClr _ => [.sampler, .consumer]
  | .rdSel => [.consumer]
  | .rdLatch => [.consumer]
  | .rdSmp => [.consumer]
  | .rdBtn => [.consumer]
  | .rdSw => [.consumer]
  | .pinA _ => []
  | .pinB _ => []
  | .btn _ => []
  | .sw _ => []
  | .riseA _ => []
  | .rotCw _ => []
  | .rotCcw _ => []
  | .rotNoneALow _ => []
  | .rotNoneAHigh _ => []
  | .pressEdge _ => []
  | .pressNoneLow _ => []
  | .pressNoneHeld _ => []

/-- The sample that an operation hands to the sampler, if a TICK is part of it. -/
def sampleTaken : Instr → Option Sample
  | .tick s => some s
  | .tickClr s => some s
  | .take t => t
  | .reset | .hold | .clrLatch | .rdSel | .rdLatch | .rdSmp | .rdBtn | .rdSw => none
  | .pinA _ | .pinB _ | .btn _ | .sw _ | .riseA _ => none
  | .rotCw _ | .rotCcw _ | .rotNoneALow _ | .rotNoneAHigh _ => none
  | .pressEdge _ | .pressNoneLow _ | .pressNoneHeld _ => none

/-- The operation clears LATCH before anything else it does: CLRLATCH, TAKE, TICKCLR, RESET (10_state.md R22). -/
def clears : Instr → Bool
  | .reset => true
  | .clrLatch => true
  | .take _ => true
  | .tickClr _ => true
  | .hold | .tick _ | .rdSel | .rdLatch | .rdSmp | .rdBtn | .rdSw => false
  | .pinA _ | .pinB _ | .btn _ | .sw _ | .riseA _ => false
  | .rotCw _ | .rotCcw _ | .rotNoneALow _ | .rotNoneAHigh _ => false
  | .pressEdge _ | .pressNoneLow _ | .pressNoneHeld _ => false

/-- The operation is one of the five that write a register: RESET, CLRLATCH, TAKE, TICK, TICKCLR
(20_memory.md R34). -/
def writesBlock (i : Instr) : Bool := clears i || (sampleTaken i).isSome

/-- The operation clears LATCH without the clearer seeing its value: CLRLATCH and TICKCLR, not TAKE. -/
def clearsUnread : Instr → Bool
  | .clrLatch => true
  | .tickClr _ => true
  | .reset | .hold | .take _ | .tick _ | .rdSel | .rdLatch | .rdSmp | .rdBtn | .rdSw => false
  | .pinA _ | .pinB _ | .btn _ | .sw _ | .riseA _ => false
  | .rotCw _ | .rotCcw _ | .rotNoneALow _ | .rotNoneAHigh _ => false
  | .pressEdge _ | .pressNoneLow _ | .pressNoneHeld _ => false

/-- Whether, after the operation performed in state `s`, the consumer holds an RDLATCH that returned 1 with no
clear since (42_consumer.md R100 item 1; any clear ends it: DEDUCED, log entry 12). -/
def seenAfter (seen : Bool) (i : Instr) (s : Machine.State) : Bool :=
  if clears i then false
  else if i = .rdLatch then seen || s.block.latch
  else seen

/-- The consumer keeps R100 item 1 along a run: it clears by TAKE, or after having read LATCH = 1. -/
def keepsClearRule : Bool → List Instr → Machine.State → Bool
  | _, [], _ => true
  | seen, i :: is, s =>
    (seen || !clearsUnread i) &&
      match Machine.exec i s with
      | .next t => keepsClearRule (seenAfter seen i s) is t
      | .fault _ => false
      | .refused _ => false

/-- Along a run, every CLRLATCH and every TICKCLR is performed on a state with LATCH = 1. -/
def clearsFindLatchSet : List Instr → Machine.State → Bool
  | [], _ => true
  | i :: is, s =>
    (s.block.latch || !clearsUnread i) &&
      match Machine.exec i s with
      | .next t => clearsFindLatchSet is t
      | .fault _ => false
      | .refused _ => false

end Sys2Proof
end

