-- ==== Sys2Proof/Certificates/Slice0/Obligations.lean ====
section
/-! DEFINITION. The statements for the provers. Each docstring names the rule of spec/ it formalises. A TICK's
effect is written out in bits and integers, not through the model's own functions, wherever it is the claim.
`ret` is the model's field for what 00_scope.md R7 writes `return v`, and `trace` the model's field for the
stimulus (log entry 1): an equation `exec i s = .next { s with … }` says of both, as of the registers, that
what it does not name is unchanged. -/

open Sys2Proof Sys2Proof.Machine

-- ---- Steps, decoding, encoding ----

/-- R35, R49, R97: a step performs the operation that the next trace entry presents; with none, a HOLD (the
trace is the model's own, log entries 1 to 3). -/
def Obligations.StepRunsDecodedStimulus : Prop :=
  (∀ (s : Machine.State) (stim : Stimulus) (rest : List Stimulus), s.trace = stim :: rest →
    (decode stim).wellFormed = true ∧ step s = exec (decode stim) { s with trace := rest }) ∧
  (∀ s : Machine.State, s.trace = [] → step s = exec .hold s)

/-- 95_test_vectors.md 2.5, R55, R50, R51: words written out from the layout rst, tick, clr, enc_in, and from those
of q and b. (The tags of entries that have no selecting word are the model's choice, log entry 5.) -/
def Obligations.WrittenWordsDecode : Prop :=
  decode (.ctl 0b1000000#7) = .reset ∧ decode (.ctl 0b1111111#7) = .reset ∧
  decode (.ctl 0b0000000#7) = .hold ∧ decode (.ctl 0b0001010#7) = .hold ∧
  decode (.ctl 0b0010000#7) = .clrLatch ∧ decode (.ctl 0b0011100#7) = .clrLatch ∧
  decode (.ctl 0b0101011#7) = .tick 0b1011#4 ∧ decode (.ctl 0b0110101#7) = .tickClr 0b0101#4 ∧
  decode (.rot 0b1011#4) = .rotCw 0b1011#4 ∧ decode (.rot 0b0001#4) = .rotCcw 0b0001#4 ∧
  decode (.rot 0b0100#4) = .rotNoneALow 0b0100#4 ∧ decode (.rot 0b0111#4) = .rotNoneAHigh 0b0111#4 ∧
  decode (.press 0b01#2) = .pressEdge 0b01#2 ∧ decode (.press 0b10#2) = .pressNoneLow 0b10#2 ∧
  decode (.press 0b11#2) = .pressNoneHeld 0b11#2

/-- R49: the operation of a step word is selected by rst, tick and clr alone, and the sample is W[3:0]. -/
def Obligations.StepWordSelectsByControlBits : Prop :=
  ∀ w : StepWord, decodeStepWord w =
    if w.getLsbD 6 then .reset
    else if w.getLsbD 5 then
      (if w.getLsbD 4 then .tickClr (w.extractLsb' 0 4) else .tick (w.extractLsb' 0 4))
    else (if w.getLsbD 4 then .clrLatch else .hold)

/-- R49, R50, R51: decode of encode is the operation itself, for every well-formed operation. (The tags of entries
that have no selecting word are the model's choice, log entry 5.) -/
def Obligations.DecodeInvertsEncode : Prop :=
  ∀ i : Instr, i.wellFormed = true → decode (encode i) = i

/-- R52, R53, R55: every presented operation decodes to a well-formed one, and its encoding is the presented
entry with the ignored bits zero. (The tags of entries that have no selecting word are the model's choice, log
entry 5.) -/
def Obligations.EncodeInvertsDecode : Prop :=
  ∀ stim : Stimulus, (decode stim).wellFormed = true ∧
    (ignoredBitsZero stim = true → encode (decode stim) = stim)

/-- R49, R96, R98: every entry that presents TAKE has a step word on the wires, which is a CLRLATCH word, or a
TICKCLR word with the same sample when a tick coincides. -/
def Obligations.TakeIsAClearOnTheWires : Prop :=
  (∀ stim : Stimulus, decode stim = .take none →
    ∃ w, wireWord stim = some w ∧ decodeStepWord w = .clrLatch) ∧
  (∀ (stim : Stimulus) (v : Sample), decode stim = .take (some v) →
    ∃ w, wireWord stim = some w ∧ decodeStepWord w = .tickClr v) ∧
  wireWord (encode (.take none)) = some 0x10#7 ∧
  (∀ v : Sample, wireWord (encode (.take (some v))) = some (0b011#3 ++ v))

-- ---- The CTL operations ----

/-- R18: the values after RESET, and those of State.reset. -/
def Obligations.ResetLeavesStatedValues : Prop :=
  (∀ s : Machine.State, ∃ t, exec .reset s = .next t ∧
    t.block = { sel := 0x00#8, latch := false, prev := 0b0000#4 }) ∧
  Machine.State.reset.block = { sel := 0x00#8, latch := false, prev := 0b0000#4 }

/-- R140: RESET writes all three registers and nothing else, is selected by rst whatever the other inputs
are, and twice is once; the outputs show the reset values from the next cycle on. -/
def Obligations.ResetHasItsWholeEffect : Prop :=
  (∀ s : Machine.State, exec .reset s =
    .next { s with block := { sel := 0x00#8, latch := false, prev := 0b0000#4 }, ret := none }) ∧
  (∀ w : StepWord, w.getLsbD 6 = true → decode (.ctl w) = .reset) ∧
  (∀ s t : Machine.State, exec .reset s = .next t → exec .reset t = .next t) ∧
  (∀ (i : Inputs) (b : Block), i.rst = true →
    outputs (cycle i b) = { selO := 0x00#8, latchO := 0#1, smpO := 0b0000#4 })

/-- R97: HOLD keeps every register; every word without a command is one; so is a step with nothing given. -/
def Obligations.HoldKeepsEveryRegister : Prop :=
  (∀ s : Machine.State, exec .hold s = .next { s with ret := none }) ∧
  (∀ encIn : Sample, decode (.ctl (0b000#3 ++ encIn)) = .hold) ∧
  (∀ s : Machine.State, s.trace = [] → step s = .next { s with ret := none })

/-- R95: CLRLATCH writes LATCH alone; with the button held, LATCH then stays 0 through any number of held samples
and any number of released ones after them, and the first press after at least one released sample sets it. -/
def Obligations.ClrLatchClearsAndDoesNotRearm : Prop :=
  (∀ s : Machine.State, exec .clrLatch s =
    .next { s with block := { sel := s.block.sel, latch := false, prev := s.block.prev }, ret := none }) ∧
  (∀ encIn : Sample, decode (.ctl (0b001#3 ++ encIn)) = .clrLatch) ∧
  (∀ (s : Machine.State) (held released : List Sample) (pressed : Sample),
    s.block.prev.getLsbD 2 = true → (∀ v ∈ held, v.getLsbD 2 = true) →
    (∀ v ∈ released, v.getLsbD 2 = false) → pressed.getLsbD 2 = true →
    ∃ t u x, execAll (.clrLatch :: ticks held) s = .next t ∧ t.block.latch = false ∧
      execAll (ticks released) t = .next u ∧ u.block.latch = false ∧
      exec (.tick pressed) u = .next x ∧ (x.block.latch = true ↔ released ≠ []))

/-- R96: TAKE returns LATCH and clears it, and writes nothing else; the next TAKE returns 1 exactly if a TICK
between them saw a press. -/
def Obligations.TakeReturnsAndClears : Prop :=
  (∀ s : Machine.State, exec (.take none) s =
    .next { s with
      block := { sel := s.block.sel, latch := false, prev := s.block.prev }
      ret := some (.bit s.block.latch) }) ∧
  wireWord (encode (.take none)) = some 0b0010000#7 ∧
  (∀ (s : Machine.State) (ss : List Sample),
    ∃ t, execAll (.take none :: ticks ss ++ [.take none]) s = .next t ∧
      t.ret = some (.bit ((presses s.block.prev ss).any id)))

/-- R70: TICK(s), all three registers from those before it. -/
def Obligations.TickHasItsWholeEffect : Prop :=
  (∀ v : Sample, decode (.ctl (0b010#3 ++ v)) = .tick v) ∧
  ∀ (v : Sample) (s : Machine.State), ∃ (d : Int) (sel' : SelWord),
    d = (if s.block.prev.getLsbD 0 = false ∧ v.getLsbD 0 = true then
          (if v.getLsbD 1 = true then 1 else -1) else 0) ∧
    sel'.toInt = (if s.block.sel.toInt < 0 then 0
      else if s.block.sel.toInt > 7 then 7
      else if s.block.sel.toInt + d < 0 then s.block.sel.toInt
      else if s.block.sel.toInt + d > 7 then s.block.sel.toInt
      else s.block.sel.toInt + d) ∧
    exec (.tick v) s = .next { s with
      block :=
        { sel := sel'
          latch := s.block.latch || (!s.block.prev.getLsbD 2 && v.getLsbD 2)
          prev := v }
      ret := none }

/-- R98: TICKCLR(s) is CLRLATCH, then TICK(s), at one edge: a press of that edge is kept. A TAKE in that cycle
does the same and returns LATCH before the edge. -/
def Obligations.TickClrClearsThenTicks : Prop :=
  (∀ v : Sample, decode (.ctl (0b011#3 ++ v)) = .tickClr v) ∧
  ∀ (v : Sample) (s : Machine.State), ∃ t u : Machine.State,
    exec (.tickClr v) s = .next t ∧ execAll [.clrLatch, .tick v] s = .next t ∧
    t.block.latch = (!s.block.prev.getLsbD 2 && v.getLsbD 2) ∧ t.block.prev = v ∧
    exec (.tick v) s = .next u ∧ t.block.sel = u.block.sel ∧ t.trace = s.trace ∧ t.ret = none ∧
    exec (.take (some v)) s = .next { t with ret := some (.bit s.block.latch) }

/-- R75: the steps (b), (c), (d) of a TICK in that order, each on the registers the one before left, are the
same function as the parallel TICK; (b) and (c) may change places, and with (d) first both decode functions
answer 0. -/
def Obligations.TickEqualsItsStepsInOrder : Prop :=
  ∀ (v : Sample) (s : Machine.State),
    exec (.tick v) s = .next (s.finish (prevStep v (selStep v (latchStep v s.block))) none) ∧
    exec (.tick v) s = .next (s.finish (prevStep v (latchStep v (selStep v s.block))) none) ∧
    rot v (prevStep v s.block).prev = .zero ∧ press v (prevStep v s.block).prev = false

-- ---- Reads and pure functions ----

/-- R90 to R94: a read returns its register or its bit of PREV, as the output port shows it, and changes no
register. -/
def Obligations.ReadsReturnTheirPort : Prop :=
  ∀ s : Machine.State,
    exec .rdSel s = .next { s with ret := some (.sel s.block.sel) } ∧
    exec .rdLatch s = .next { s with ret := some (.bit s.block.latch) } ∧
    exec .rdSmp s = .next { s with ret := some (.sample s.block.prev) } ∧
    exec .rdBtn s = .next { s with ret := some (.bit (s.block.prev.getLsbD 2)) } ∧
    exec .rdSw s = .next { s with ret := some (.bit (s.block.prev.getLsbD 3)) } ∧
    outputs s.block =
      { selO := s.block.sel, latchO := BitVec.ofBool s.block.latch, smpO := s.block.prev }

/-- R45, R46, R60, R61: the bits of a sample, and the sample in a byte. -/
def Obligations.SamplesAreFourLines : Prop :=
  (∀ v : Sample, pinA v = v.getLsbD 0 ∧ pinB v = v.getLsbD 1 ∧ btn v = v.getLsbD 2 ∧ sw v = v.getLsbD 3) ∧
  (∀ swLine btnLine b a : Bool,
    pinA (sampleOfLines swLine btnLine b a) = a ∧ pinB (sampleOfLines swLine btnLine b a) = b ∧
    btn (sampleOfLines swLine btnLine b a) = btnLine ∧ sw (sampleOfLines swLine btnLine b a) = swLine) ∧
  (∀ (high : BitVec 4) (v : Sample), sampleOfByte (high ++ v) = v)

/-- R60 to R63: each extractor returns its bit of the sample and changes no register. (Performed on its own: log
entry 4.) -/
def Obligations.ExtractorsReturnTheirBit : Prop :=
  ∀ (v : Sample) (s : Machine.State),
    exec (.pinA v) s = .next { s with ret := some (.bit (v.getLsbD 0)) } ∧
    exec (.pinB v) s = .next { s with ret := some (.bit (v.getLsbD 1)) } ∧
    exec (.btn v) s = .next { s with ret := some (.bit (v.getLsbD 2)) } ∧
    exec (.sw v) s = .next { s with ret := some (.bit (v.getLsbD 3)) }

/-- R64: RISE_A is 1 exactly when A was 0 in the previous sample and is 1 in the current one. (Performed on
its own: log entry 4.) -/
def Obligations.RiseAAnswersTheEdge : Prop :=
  ∀ (v p : Sample) (s : Machine.State),
    riseA v p = (!p.getLsbD 0 && v.getLsbD 0) ∧
    exec (.riseA (quadIndex v p)) s = .next { s with ret := some (.bit (!p.getLsbD 0 && v.getLsbD 0)) } ∧
    (∀ q : QuadIndex, exec (.riseA q) s = .next { s with ret := some (.bit (!q.getLsbD 2 && q.getLsbD 0)) })

/-- R65: ROT by its definition; the button and switch bits and the previous B do not matter. -/
def Obligations.RotFollowsItsDefinition : Prop :=
  ∀ v p : Sample,
    rot v p = (if p.getLsbD 0 = false ∧ v.getLsbD 0 = true then
      (if v.getLsbD 1 = true then .cw else .ccw) else .zero) ∧
    rot v p = rot (v &&& 0b0011#4) (p &&& 0b0011#4) ∧ rot v p = rot v (p &&& 0b0001#4) ∧
    rot v v = .zero

/-- R50, R65: each ROT row, at every index its pattern matches, answers its delta and changes no register; exactly
one row matches an index; and the row of two samples answers ROT. (Performed on their own: log entry 4.) -/
def Obligations.RotRowsAnswerTheirDelta : Prop :=
  ∀ (q : QuadIndex) (s : Machine.State),
    ((Instr.rotCw q).wellFormed = true → exec (.rotCw q) s = .next { s with ret := some (.delta .cw) }) ∧
    ((Instr.rotCcw q).wellFormed = true → exec (.rotCcw q) s = .next { s with ret := some (.delta .ccw) }) ∧
    ((Instr.rotNoneALow q).wellFormed = true →
      exec (.rotNoneALow q) s = .next { s with ret := some (.delta .zero) }) ∧
    ((Instr.rotNoneAHigh q).wellFormed = true →
      exec (.rotNoneAHigh q) s = .next { s with ret := some (.delta .zero) }) ∧
    ([Instr.rotCw q, .rotCcw q, .rotNoneALow q, .rotNoneAHigh q].filter Instr.wellFormed = [decodeRot q]) ∧
    (∀ v p : Sample, (quadIndex v p).getLsbD 3 = p.getLsbD 1 ∧ (quadIndex v p).getLsbD 2 = p.getLsbD 0 ∧
      (quadIndex v p).getLsbD 1 = v.getLsbD 1 ∧ (quadIndex v p).getLsbD 0 = v.getLsbD 0 ∧
      exec (decodeRot (quadIndex v p)) s = .next { s with ret := some (.delta (rot v p)) })

/-- R51, R67: each PRESS row, at every index its pattern matches, answers its event and changes no register;
exactly one row matches an index; and the row of two samples answers PRESS. (Performed on their own: log
entry 4.) -/
def Obligations.PressRowsAnswerTheirEvent : Prop :=
  (∀ (b : ButtonIndex) (s : Machine.State),
    ((Instr.pressEdge b).wellFormed = true → exec (.pressEdge b) s = .next { s with ret := some (.bit true) }) ∧
    ((Instr.pressNoneLow b).wellFormed = true →
      exec (.pressNoneLow b) s = .next { s with ret := some (.bit false) }) ∧
    ((Instr.pressNoneHeld b).wellFormed = true →
      exec (.pressNoneHeld b) s = .next { s with ret := some (.bit false) }) ∧
    ([Instr.pressEdge b, .pressNoneLow b, .pressNoneHeld b].filter Instr.wellFormed = [decodePress b])) ∧
  (∀ (v p : Sample) (s : Machine.State),
    press v p = (!p.getLsbD 2 && v.getLsbD 2) ∧
    (buttonIndex v p).getLsbD 1 = p.getLsbD 2 ∧ (buttonIndex v p).getLsbD 0 = v.getLsbD 2 ∧
    exec (decodePress (buttonIndex v p)) s =
      .next { s with ret := some (.bit (!p.getLsbD 2 && v.getLsbD 2)) })

/-- R47: the delta's codes, the reserved code, and the sign extension under which adding in eight bits is adding
the value, wherever the sum stays in range. -/
def Obligations.DeltaCodesAndExtension : Prop :=
  deltaCode .zero = 0b00#2 ∧ deltaCode .cw = 0b01#2 ∧ deltaCode .ccw = 0b11#2 ∧
  (∀ (c : BitVec 2) (d : Delta), deltaOfCode c = some d ↔ c = deltaCode d) ∧ deltaOfCode 0b10#2 = none ∧
  deltaExtended .zero = 0x00#8 ∧ deltaExtended .cw = 0x01#8 ∧ deltaExtended .ccw = 0xFF#8 ∧
  (∀ (sel : SelWord) (d : Delta), 0 ≤ sel.toInt → sel.toInt ≤ 7 →
    0 ≤ sel.toInt + deltaInt d → sel.toInt + deltaInt d ≤ 7 → selNext sel d = sel + deltaExtended d)

-- ---- Totality, invariants ----

/-- R8, R120: no step and no operation faults or is refused, whatever the state and the operands. -/
def Obligations.EveryOperationCompletes : Prop :=
  (∀ (i : Instr) (s : Machine.State), ∃ t, exec i s = .next t) ∧
  (∀ s : Machine.State, ∃ t, step s = .next t)

/-- R14, R77: every step keeps 0 <= SEL <= MAX, from every state that has it. -/
def Obligations.StepKeepsSelInRange : Prop :=
  ∀ s t : Machine.State, SelInRange s.block → step s = .next t → SelInRange t.block

/-- R14, R18: the state after reset has 0 <= SEL <= MAX. -/
def Obligations.ResetSelIsInRange : Prop := SelInRange Machine.State.reset.block

/-- R14: in every state reachable from RESET, whatever state RESET was applied to, 0 <= SEL <= MAX; and an out-of-range SEL
that comes from elsewhere is brought into range by the next TICK. -/
def Obligations.ReachableSelIsInRange : Prop :=
  (∀ (s : Machine.State) (ops : List Instr), ∃ t, execAll (.reset :: ops) s = .next t ∧ SelInRange t.block) ∧
  (∀ (v : Sample) (s : Machine.State), ∃ t, exec (.tick v) s = .next t ∧ SelInRange t.block)

/-- R78: from any SEL, one TICK brings it into range; if it was out of range the delta is discarded; LATCH
and PREV are updated as usual. -/
def Obligations.OneTickRecovers : Prop :=
  ∀ (v : Sample) (s : Machine.State), ∃ t, exec (.tick v) s = .next t ∧
    SelInRange t.block ∧
    (s.block.sel.toInt < 0 → t.block.sel.toInt = 0) ∧ (7 < s.block.sel.toInt → t.block.sel.toInt = 7) ∧
    t.block.latch = (s.block.latch || (!s.block.prev.getLsbD 2 && v.getLsbD 2)) ∧ t.block.prev = v

/-- R76: the next-state table of SEL, in its closed form: clamped out of range, saturating in range. -/
def Obligations.SelFollowsItsTable : Prop :=
  ∀ (v : Sample) (s : Machine.State), ∃ t, exec (.tick v) s = .next t ∧
    (s.block.sel.toInt < 0 → t.block.sel = 0x00#8) ∧
    (7 < s.block.sel.toInt → t.block.sel = 0x07#8) ∧
    (SelInRange s.block →
      t.block.sel.toInt = min 7 (max 0 (s.block.sel.toInt + deltaInt (rot v s.block.prev))))

-- ---- Sequences of samples ----

/-- R66: the laws of ROT, items (1) to (7). -/
def Obligations.RotLawsOverSequences : Prop :=
  (∀ v p : Sample, rot v p ≠ .zero ↔ (p.getLsbD 0 = false ∧ v.getLsbD 0 = true)) ∧
  (∀ v p : Sample, (rot v p = .cw ↔ quadIndex v p &&& 0b0111#4 = 0b0011#4) ∧
    (rot v p = .ccw ↔ quadIndex v p &&& 0b0111#4 = 0b0001#4)) ∧
  (∀ v : Sample, rot v v = .zero) ∧
  (∀ v v' p p' : Sample, v &&& 0b0011#4 = v' &&& 0b0011#4 → p.getLsbD 0 = p'.getLsbD 0 → rot v p = rot v' p') ∧
  (∀ v p : Sample, rot v p ≠ .zero → ∀ t, rot t v = .zero) ∧
  (∀ (p : Sample) (ss : List Sample), 2 * numEvents (deltas p ss) ≤ ss.length + 1) ∧
  (∀ p : Sample, p &&& 0b0011#4 = 0b0000#4 →
    deltas p cwSamples = [.zero, .cw, .zero, .zero] ∧ deltas p ccwSamples = [.ccw, .zero, .zero, .zero] ∧
    deltas p [0b0010#4, 0b0011#4, 0b0010#4, 0b0011#4] = [.zero, .cw, .zero, .cw])

/-- R82: the nonzero deltas of a sequence are as many as the 0-to-1 changes of A between consecutive samples,
and its press events as many as those of BTN. -/
def Obligations.OneEventPerInputEdge : Prop :=
  ∀ (p : Sample) (ss : List Sample),
    numEvents (deltas p ss) =
      (((p :: ss).zip ss).filter (fun e => !e.1.getLsbD 0 && e.2.getLsbD 0)).length ∧
    ((presses p ss).filter id).length =
      (((p :: ss).zip ss).filter (fun e => !e.1.getLsbD 2 && e.2.getLsbD 2)).length

/-- R67: a button held over any number of samples gives a press event on the first of them only, and there only
if it was released before. -/
def Obligations.HeldButtonPressesOnce : Prop :=
  ∀ (p v : Sample) (held : List Sample), (∀ u ∈ v :: held, u.getLsbD 2 = true) →
    presses p (v :: held) = (!p.getLsbD 2) :: List.replicate held.length false

/-- R80: per-TICK bounds, and the closed form of a sequence whose nonzero deltas all have one sign; with
both signs the order matters once a bound is touched. -/
def Obligations.OneSidedTurnsSaturate : Prop :=
  (∀ (v : Sample) (s : Machine.State), SelInRange s.block → ∃ t, exec (.tick v) s = .next t ∧
    t.block.sel.toInt - s.block.sel.toInt ≤ 1 ∧ s.block.sel.toInt - t.block.sel.toInt ≤ 1 ∧
    (s.block.latch = true → t.block.latch = true) ∧ t.block.prev = v) ∧
  (∀ (ss : List Sample) (s : Machine.State), SelInRange s.block → Delta.ccw ∉ deltas s.block.prev ss →
    ∃ t, execAll (ticks ss) s = .next t ∧
      t.block.sel.toInt = min (s.block.sel.toInt + numOf .cw (deltas s.block.prev ss)) 7) ∧
  (∀ (ss : List Sample) (s : Machine.State), SelInRange s.block → Delta.cw ∉ deltas s.block.prev ss →
    ∃ t, execAll (ticks ss) s = .next t ∧
      t.block.sel.toInt = max (s.block.sel.toInt - numOf .ccw (deltas s.block.prev ss)) 0) ∧
  selNext (selNext 0#8 .ccw) .cw = 1#8 ∧ selNext (selNext 0#8 .cw) .ccw = 0#8

/-- R79: at a bound, any number of deltas beyond it leave SEL there, and the first delta the other way moves it by
one: no wind-up. -/
def Obligations.SaturationIsNotOwedBack : Prop :=
  (∀ (ss : List Sample) (s : Machine.State), s.block.sel = 0x07#8 → Delta.ccw ∉ deltas s.block.prev ss →
    ∃ t, execAll (ticks ss) s = .next t ∧ t.block.sel = 0x07#8 ∧
      ∀ v, rot v t.block.prev = .ccw → ∃ u, exec (.tick v) t = .next u ∧ u.block.sel = 0x06#8) ∧
  (∀ (ss : List Sample) (s : Machine.State), s.block.sel = 0x00#8 → Delta.cw ∉ deltas s.block.prev ss →
    ∃ t, execAll (ticks ss) s = .next t ∧ t.block.sel = 0x00#8 ∧
      ∀ v, rot v t.block.prev = .cw → ∃ u, exec (.tick v) t = .next u ∧ u.block.sel = 0x01#8)

/-- R81: a TICK with the sample already in PREV sees no event; in range it changes no register, any number of
times over; and any TICK repeated at once changes nothing more. -/
def Obligations.RepeatedSampleIsIdle : Prop :=
  (∀ v : Sample, rot v v = .zero ∧ press v v = false) ∧
  (∀ (n : Nat) (s : Machine.State), SelInRange s.block →
    ∃ t, execAll (List.replicate n (.tick s.block.prev)) s = .next t ∧ t.block = s.block) ∧
  (∀ (v : Sample) (s t : Machine.State), exec (.tick v) s = .next t → exec (.tick v) t = .next t)

/-- R55, R66 item (6), R80: from rest, n clockwise detents add n to SEL up to MAX, n counter-clockwise ones take
n away down to 0, and neither touches LATCH. -/
def Obligations.DetentsCountOnce : Prop :=
  ∀ (n : Nat) (s : Machine.State), SelInRange s.block → s.block.prev = 0b0000#4 →
    (∃ t, execAll (ticks (times n cwSamples)) s = .next t ∧
      t.block.sel.toInt = min (s.block.sel.toInt + n) 7 ∧ t.block.latch = s.block.latch ∧
      t.block.prev = 0b0000#4) ∧
    (∃ t, execAll (ticks (times n ccwSamples)) s = .next t ∧
      t.block.sel.toInt = max (s.block.sel.toInt - n) 0 ∧ t.block.latch = s.block.latch ∧
      t.block.prev = 0b0000#4)

/-- R151: with B high, each bounce of A counts once more in the same direction, with nothing to cancel it. -/
def Obligations.ChatterOnARunsAway : Prop :=
  ∀ (n : Nat) (s : Machine.State), SelInRange s.block →
    ∃ t, execAll (ticks (times n [0b0010#4, 0b0011#4])) s = .next t ∧
      t.block.sel.toInt = min (s.block.sel.toInt + n) 7

/-- R148: the first TICK after RESET compares with 0b0000: A high counts (up with B high; dropped at 0 with B
low), and the button high sets LATCH. -/
def Obligations.FirstTickComparesWithZero : Prop :=
  ∀ (v : Sample) (s : Machine.State), ∃ t, execAll [.reset, .tick v] s = .next t ∧
    t.block.sel = (if v.getLsbD 0 = true ∧ v.getLsbD 1 = true then 0x01#8 else 0x00#8) ∧
    t.block.latch = v.getLsbD 2 ∧ t.block.prev = v

-- ---- The latch ----

/-- R101 items (1) and (5): once set, LATCH stays set through any operations that do not clear. -/
def Obligations.LatchPersistsWithoutAClear : Prop :=
  ∀ (ops : List Instr) (s : Machine.State), s.block.latch = true →
    (∀ i ∈ ops, i ≠ .reset ∧ i ≠ .clrLatch ∧ (∀ t, i ≠ .take t) ∧ (∀ v, i ≠ .tickClr v)) →
    ∃ t, execAll ops s = .next t ∧ t.block.latch = true

/-- R101 item (3), R22: LATCH goes from 0 to 1 only in a TICK (or the tick half of TICKCLR) with BTN(PREV) = 0
and BTN(s) = 1. -/
def Obligations.LatchIsSetOnlyByAPress : Prop :=
  ∀ (i : Instr) (s t : Machine.State), exec i s = .next t → s.block.latch = false → t.block.latch = true →
    ∃ v, (i = .tick v ∨ i = .tickClr v ∨ i = .take (some v)) ∧
      s.block.prev.getLsbD 2 = false ∧ v.getLsbD 2 = true

/-- R102, R101 item (2): a clear after a read and any TICKs leaves LATCH 0 however many presses there were,
while the rotation of those TICKs is kept. -/
def Obligations.ClearAfterActionDropsPresses : Prop :=
  ∀ (ss : List Sample) (s : Machine.State), ∃ t u,
    execAll (.rdLatch :: ticks ss ++ [.clrLatch]) s = .next t ∧ execAll (ticks ss) s = .next u ∧
    t.block = { sel := u.block.sel, latch := false, prev := u.block.prev } ∧
    u.block.latch = (s.block.latch || (presses s.block.prev ss).any id)

/-- R100 item (1) with R101: in a run whose consumer issues CLRLATCH (alone or as the clearing half of TICKCLR)
only after it has read LATCH = 1, every CLRLATCH and every TICKCLR finds LATCH = 1. TAKE needs no read before it
and may find LATCH = 0. That any clear, TAKE and RESET among them, ends a read's licence is DEDUCED, log
entry 12. -/
def Obligations.ClearRuleFindsLatchSet : Prop :=
  ∀ (ops : List Instr) (s : Machine.State), keepsClearRule false ops s = true →
    clearsFindLatchSet ops s = true

-- ---- Agents, noninterference, ordering ----

/-- R20, R128: who may change what. Without the sampler or the integrator SEL and PREV stay and LATCH is not set;
without the consumer or the integrator LATCH is not cleared. -/
def Obligations.AgentsKeepTheirRights : Prop :=
  ∀ (i : Instr) (s t : Machine.State), exec i s = .next t → Agent.integrator ∉ agents i →
    (Agent.sampler ∉ agents i →
      t.block.sel = s.block.sel ∧ t.block.prev = s.block.prev ∧ (t.block.latch = true → s.block.latch = true)) ∧
    (Agent.consumer ∉ agents i → s.block.latch = true → t.block.latch = true)

/-- R22: LATCH is no condition code: two runs of the same operations from states that differ only in LATCH give
the same SEL and PREV. -/
def Obligations.LatchInfluencesNoOtherRegister : Prop :=
  ∀ (ops : List Instr) (s s' : Machine.State), s.block.sel = s'.block.sel → s.block.prev = s'.block.prev →
    ∃ t t', execAll ops s = .next t ∧ execAll ops s' = .next t' ∧
      t.block.sel = t'.block.sel ∧ t.block.prev = t'.block.prev

/-- R63, R83: the switch line influences neither SEL nor LATCH: two sequences of samples that differ only in SW
give the same, and a PREV that differs only there. -/
def Obligations.SwitchInfluencesNothing : Prop :=
  ∀ (ss ss' : List Sample) (s s' : Machine.State),
    ss.map (fun v => v &&& 0b0111#4) = ss'.map (fun v => v &&& 0b0111#4) →
    s.block.sel = s'.block.sel → s.block.latch = s'.block.latch →
    s.block.prev &&& 0b0111#4 = s'.block.prev &&& 0b0111#4 →
    ∃ t t', execAll (ticks ss) s = .next t ∧ execAll (ticks ss') s' = .next t' ∧
      t.block.sel = t'.block.sel ∧ t.block.latch = t'.block.latch ∧
      t.block.prev &&& 0b0111#4 = t'.block.prev &&& 0b0111#4

/-- R34 (reads) and R97 (HOLD): these can be dropped from any run without changing the registers it ends with. So
can evaluations of the pure functions, which read and write no register (40_decode.md, opening); that they stand
in a run as operations of their own at all is the model's choice, log entry 4. -/
def Obligations.NonWritingOperationsDropOut : Prop :=
  ∀ (ops : List Instr) (s : Machine.State), ∃ t u,
    execAll ops s = .next t ∧ execAll (ops.filter writesBlock) s = .next u ∧ t.block = u.block

/-- R99: CYCLE is its combinational form, and a step word performs the cycle of its inputs. -/
def Obligations.CycleEqualsItsCircuit : Prop :=
  (∀ (i : Inputs) (b : Block), cycle i b = cycleCircuit i b) ∧
  (∀ (w : StepWord) (s : Machine.State),
    exec (decodeStepWord w) s = .next { s with block := cycle (inputsOfWord w) s.block, ret := none }) ∧
  (∀ i : Inputs, inputsOfWord (wordOfInputs i) = i)

/-- R99, R35: any sequence of clock cycles ends in the registers that its total order of operations ends in,
HOLDs dropped and each TICKCLR split. -/
def Obligations.CyclesRefineTheTotalOrder : Prop :=
  ∀ (cs : List Inputs) (s : Machine.State), ∃ t,
    execAll (cs.flatMap opsOfCycle) s = .next t ∧ t.block = runCycles cs s.block

/-- R35, R49: the outputs a consumer samples during the cycles of a run are those of the state that every
earlier cycle, and no later one, has written. -/
def Obligations.CycleOutputsShowEarlierWrites : Prop :=
  ∀ (before : List Inputs) (now : Inputs) (later : List Inputs) (b : Block),
    (cycleOutputs (before ++ now :: later) b)[before.length]? = some (outputs (runCycles before b))

/-- R35: running the machine over its trace is performing the presented operations in their one total order, each
on the state the one before it left (the trace is the model's own, log entry 1). -/
def Obligations.RunIsTheTotalOrder : Prop :=
  ∀ s : Machine.State, Host.Core.run Sys2Proof.core s.trace.length s =
    execAll (s.trace.map decode) { s with trace := [] }

-- ---- The reference consumer (informative) ----

/-- R106: since SEL is in range, the unset marker always forces a redraw; so an iteration that ran an action is
followed by one, and one that did not is not unless the selection has changed. -/
def Obligations.UnsetMarkerForcesRedraw : Prop :=
  ∀ (unset : Int) (b : Block) (drawn : SelWord), Config.markerLegal unset → SelInRange b →
    needsRedraw unset b.sel = true ∧ needsRedraw (markerAfter unset drawn true) b.sel = true ∧
    (needsRedraw (markerAfter unset drawn false) b.sel = true ↔ drawn ≠ b.sel)

/-- R105: the eight slots, and only they, have a label and an action, and the labels coincide as listed. -/
def Obligations.MenuHasEightSlots : Prop :=
  (∀ b : Block, SelInRange b ↔ (menuAction b.sel).isSome = true) ∧
  menuLabel 0#8 = some "TURN OFF LEDS" ∧
  menuLabel 1#8 = some "TURN ON LEDS" ∧ menuLabel 2#8 = menuLabel 1#8 ∧
  menuLabel 3#8 = some "FLASH LEDS" ∧ menuLabel 4#8 = menuLabel 3#8 ∧
  menuLabel 5#8 = some "HEART SEQUENCE" ∧ menuLabel 6#8 = menuLabel 5#8 ∧
  menuLabel 7#8 = some "DISPLAY INFO"

/-- R104, R102, C2: over one iteration with a press pending and any TICKs in any of its gaps, clearing after the
action loses every press made up to the clear, clearing before it keeps those made since the TAKE; the rotation
is the same. -/
def Obligations.ClearOrderDecidesPressesInAction : Prop :=
  ∀ (a b c d : List Sample) (s : Machine.State), ∃ t u,
    execAll (iterationOps .afterAction true ⟨ticks a, ticks b, ticks c, ticks d⟩) s = .next t ∧
    t.block.latch = (presses ((a ++ b ++ c).getLast?.getD s.block.prev) d).any id ∧
    execAll (iterationOps .beforeAction true ⟨ticks a, ticks b, ticks c, ticks d⟩) s = .next u ∧
    u.block.latch = (presses (a.getLast?.getD s.block.prev) (b ++ c ++ d)).any id ∧
    t.block.sel = u.block.sel ∧ t.block.prev = u.block.prev

/-- R104: an iteration, whatever falls in its gaps, performs its operations in order; it draws by the first read of
SEL, finds a press pending as LATCH is when it looks, and acts only then. -/
def Obligations.IterationPerformsItsOperations : Prop :=
  ∀ (order : ClearOrder) (unset marker : Int) (g : Interleaving) (s : Machine.State), ∃ r look t,
    runIteration order unset marker g s = some r ∧
    execAll (.rdSel :: g.afterDraw) s = .next look ∧
    execAll (iterationOps order look.block.latch g) s = .next t ∧ r.state = t ∧
    r.drawn = s.block.sel ∧ r.redrew = needsRedraw marker s.block.sel ∧
    r.acted.isSome = look.block.latch ∧ r.marker = markerAfter unset s.block.sel look.block.latch

/-- R155 item (1), R90: the slot acted on is SEL at the second read, after the TICKs of both gaps; it is at most as
many slots from the one drawn as those TICKs saw deltas, so equal to it if they saw none. (Fresh second read: log
entry 11.) -/
def Obligations.ActionSlotDriftsByTheDeltasBetweenReads : Prop :=
  ∀ (order : ClearOrder) (unset marker : Int) (a b : List Sample) (inAction inDelay : List Instr)
    (s : Machine.State), SelInRange s.block →
    (s.block.latch || (presses s.block.prev a).any id) = true →
    ∃ r w u, runIteration order unset marker ⟨ticks a, ticks b, inAction, inDelay⟩ s = some r ∧
      r.acted = some w ∧ execAll (ticks (a ++ b)) s = .next u ∧ w = u.block.sel ∧
      w.toInt - r.drawn.toInt ≤ numEvents (deltas s.block.prev (a ++ b)) ∧
      r.drawn.toInt - w.toInt ≤ numEvents (deltas s.block.prev (a ++ b))

/-- R155 item (1): in either gap between the two reads, one TICK that moves the knob makes the iteration show one
label and run the action of the neighbouring slot. (Fresh second read: log entry 11.) -/
def Obligations.LabelAndActionMayDiffer : Prop :=
  ∀ (order : ClearOrder) (unset marker : Int) (s : Machine.State), s.block.latch = true →
    s.block.sel = 0x02#8 → s.block.prev = 0b0010#4 →
    ∀ g ∈ [Interleaving.mk (ticks [0b0011#4]) [] [] [], Interleaving.mk [] (ticks [0b0011#4]) [] []],
      ∃ r, runIteration order unset marker g s = some r ∧
        menuLabel r.drawn = some "TURN ON LEDS" ∧ r.acted.bind menuAction = some .flashLeds
end

