-- ==== Sys2Proof/Laws/State.lean ====
section
/-! SUPPORT. One lemma per field per update of the state and of the block, so that no proof unfolds a record
update. -/

namespace Sys2Proof.Machine

variable (s : State) (b c : Block) (r : Option Returned) (x : Returned) (v : Sample) (tr : List Stimulus)

@[simp] theorem State.finish_block : (s.finish b r).block = b := rfl
@[simp] theorem State.finish_trace : (s.finish b r).trace = s.trace := rfl
@[simp] theorem State.finish_ret : (s.finish b r).ret = r := rfl

@[simp] theorem State.answer_block : (s.answer x).block = s.block := rfl
@[simp] theorem State.answer_trace : (s.answer x).trace = s.trace := rfl
@[simp] theorem State.answer_ret : (s.answer x).ret = some x := rfl

@[simp] theorem tickBlock_sel : (tickBlock v b).sel = selNext b.sel (rot v b.prev) := rfl
@[simp] theorem tickBlock_latch : (tickBlock v b).latch = latchNext b.latch (press v b.prev) := rfl
@[simp] theorem tickBlock_prev : (tickBlock v b).prev = v := rfl

@[simp] theorem clearLatch_sel : (clearLatch b).sel = b.sel := rfl
@[simp] theorem clearLatch_latch : (clearLatch b).latch = false := rfl
@[simp] theorem clearLatch_prev : (clearLatch b).prev = b.prev := rfl

@[simp] theorem tickClrBlock_sel : (tickClrBlock v b).sel = selNext b.sel (rot v b.prev) := rfl
@[simp] theorem tickClrBlock_latch : (tickClrBlock v b).latch = press v b.prev := Bool.false_or _
@[simp] theorem tickClrBlock_prev : (tickClrBlock v b).prev = v := rfl

@[simp] theorem latchStep_sel : (latchStep v b).sel = b.sel := rfl
@[simp] theorem latchStep_latch : (latchStep v b).latch = latchNext b.latch (press v b.prev) := rfl
@[simp] theorem latchStep_prev : (latchStep v b).prev = b.prev := rfl

@[simp] theorem selStep_sel : (selStep v b).sel = selNext b.sel (rot v b.prev) := rfl
@[simp] theorem selStep_latch : (selStep v b).latch = b.latch := rfl
@[simp] theorem selStep_prev : (selStep v b).prev = b.prev := rfl

@[simp] theorem prevStep_sel : (prevStep v b).sel = b.sel := rfl
@[simp] theorem prevStep_latch : (prevStep v b).latch = b.latch := rfl
@[simp] theorem prevStep_prev : (prevStep v b).prev = v := rfl

@[simp] theorem resetBlock_sel : (resetBlock b).sel = 0#8 := rfl
@[simp] theorem resetBlock_latch : (resetBlock b).latch = false := rfl
@[simp] theorem resetBlock_prev : (resetBlock b).prev = 0b0000#4 := rfl

/-- MAX as a numeral, for omega and simp. -/
@[simp] theorem selMax_eq : Config.selMax = 7 := rfl

/-- Two blocks with equal registers are equal. -/
theorem Block.eq_of_fields (hs : b.sel = c.sel) (hl : b.latch = c.latch) (hp : b.prev = c.prev) : b = c := by
  cases b; cases c; simp_all

end Sys2Proof.Machine
end

