-- ==== Sys2Proof/Laws/Ops.lean ====
section
/-! SUPPORT. What each shared operation does, said once: the SEL update as an integer, the decode functions in
bits, and every next state that exec can answer. -/

namespace Sys2Proof.Machine

/-- The five tests of R73 over the integers, for every value of SEL and every delta. -/
theorem selNext_toInt (sel : SelWord) (d : Delta) :
    (selNext sel d).toInt =
      if sel.toInt < 0 then 0
      else if 7 < sel.toInt then 7
      else if sel.toInt + deltaInt d < 0 then sel.toInt
      else if 7 < sel.toInt + deltaInt d then sel.toInt
      else sel.toInt + deltaInt d := by
  unfold selNext
  split_ifs with h0 h1 h2 h3
  · rfl
  · decide
  · rfl
  · rfl
  · rw [BitVec.toInt_ofInt]
    exact Int.bmod_eq_of_le (by simp only [Config.selMax] at *; omega) (by simp only [Config.selMax] at *; omega)

/-- The range invariant with MAX as a numeral. -/
theorem selInRange_iff {b : Block} : SelInRange b ↔ 0 ≤ b.sel.toInt ∧ b.sel.toInt ≤ 7 := Iff.rfl

/-- A delta is -1, 0 or +1. -/
theorem deltaInt_bounds (d : Delta) : -1 ≤ deltaInt d ∧ deltaInt d ≤ 1 := by
  cases d <;> decide

/-- ROT in bits (R65). -/
theorem rot_eq_bits (v p : Sample) :
    rot v p = if !p.getLsbD 0 && v.getLsbD 0 then (if v.getLsbD 1 then .cw else .ccw) else .zero := rfl

/-- PRESS in bits (R67). -/
theorem press_eq_bits (v p : Sample) : press v p = (!p.getLsbD 2 && v.getLsbD 2) := rfl

/-- LATCH after a TICK is the OR of R72. -/
@[simp] theorem latchNext_eq (latch pressed : Bool) : latchNext latch pressed = (latch || pressed) := rfl

/-- Everything exec can answer, register by register: no register written; RESET; a clear; or a TICK, after a
clear where the operation clears. -/
theorem exec_cases {i : Instr} {s t : State} (h : exec i s = .next t) :
    t.trace = s.trace ∧
      ((writesBlock i = false ∧ t.block = s.block) ∨
       (i = .reset ∧ t.block = Block.reset) ∨
       (i ≠ .reset ∧ clears i = true ∧ sampleTaken i = none ∧ t.block = clearLatch s.block) ∨
       ∃ v, i ≠ .reset ∧ sampleTaken i = some v ∧
         t.block = tickBlock v (if clears i then clearLatch s.block else s.block)) := by
  cases i
  case take o => cases o <;> cases h <;> simp [sampleTaken, clears, tickClrBlock]
  all_goals
    cases h
    simp [writesBlock, clears, sampleTaken, tickClrBlock, resetBlock]

/-- Everything a step can be: one operation performed on the same registers, with one trace entry fewer. -/
theorem step_cases {s t : State} (h : step s = .next t) :
    ∃ i u, exec i u = .next t ∧ u.block = s.block ∧ u.trace = s.trace.tail := by
  unfold step at h
  split at h
  case h_1 hs => exact ⟨_, s, h, rfl, by rw [hs]; rfl⟩
  case h_2 hs => exact ⟨_, _, h, rfl, by rw [hs]; rfl⟩

/-- Running a sequence after another is running both. -/
theorem execAll_append (xs ys : List Instr) (s t : State) (h : execAll xs s = .next t) :
    execAll (xs ++ ys) s = execAll ys t := by
  induction xs generalizing s with
  | nil => cases h; rfl
  | cons i is ih =>
    simp only [execAll, List.cons_append] at h ⊢
    split at h
    · exact ih _ h
    · cases h
    · cases h

end Sys2Proof.Machine
end

