-- ==== Sys2Proof/Laws/Trace.lean ====
section
/-! SUPPORT. A sequence of TICKs as a fold over the registers, and its closed forms for PREV and LATCH. -/

namespace Sys2Proof.Machine

/-- The registers after one TICK per sample. -/
def tickBlocks (ss : List Sample) (b : Block) : Block := ss.foldl (fun c v => tickBlock v c) b

@[simp] theorem tickBlocks_nil (b : Block) : tickBlocks [] b = b := rfl
@[simp] theorem tickBlocks_cons (v : Sample) (vs : List Sample) (b : Block) :
    tickBlocks (v :: vs) b = tickBlocks vs (tickBlock v b) := rfl
theorem tickBlocks_append (us vs : List Sample) (b : Block) :
    tickBlocks (us ++ vs) b = tickBlocks vs (tickBlocks us b) := List.foldl_append

/-- A run of TICKs ends in the folded registers. -/
theorem execAll_ticks (ss : List Sample) (s : State) :
    ∃ t, execAll (ticks ss) s = .next t ∧ t.block = tickBlocks ss s.block := by
  induction ss generalizing s with
  | nil => exact ⟨s, rfl, rfl⟩
  | cons v vs ih =>
    obtain ⟨t, h, hb⟩ := ih (s.finish (tickBlock v s.block) none)
    exact ⟨t, h, hb⟩

/-- LATCH after a run of TICKs: set before, or by any press event of the run (R72). -/
theorem tickBlocks_latch (ss : List Sample) (b : Block) :
    (tickBlocks ss b).latch = (b.latch || (presses b.prev ss).any id) := by
  induction ss generalizing b with
  | nil => simp [presses]
  | cons v vs ih => simp [presses, ih, Bool.or_assoc]

/-- PREV after a run of TICKs: the last sample (R74). -/
theorem tickBlocks_prev (ss : List Sample) (b : Block) : (tickBlocks ss b).prev = ss.getLast?.getD b.prev := by
  induction ss generalizing b with
  | nil => rfl
  | cons v vs ih => simp only [tickBlocks_cons, ih]; cases vs <;> simp [List.getLast?_cons]

end Sys2Proof.Machine
end

