-- ==== Sys2Proof/Laws/Consumer.lean ====
section
/-! SUPPORT. What stateAfter can answer, said once, so that no proof about an iteration unfolds it. -/

namespace Sys2Proof.Machine

/-- stateAfter answers exactly the next state of the run. -/
theorem stateAfter_eq_some {ops : List Instr} {s t : State} : stateAfter ops s = some t ↔ execAll ops s = .next t := by
  unfold stateAfter
  split <;> simp_all

/-- The state after two sequences is that after the second from that after the first. -/
theorem stateAfter_append {xs : List Instr} {s t : State} (ys : List Instr) (h : stateAfter xs s = some t) :
    stateAfter (xs ++ ys) s = stateAfter ys t := by
  unfold stateAfter
  rw [execAll_append xs ys s t (stateAfter_eq_some.mp h)]

@[simp] theorem stateAfter_nil (s : State) : stateAfter [] s = some s := rfl

@[simp] theorem stateAfter_rdSel (s : State) : stateAfter [.rdSel] s = some (s.answer (.sel s.block.sel)) := rfl

@[simp] theorem stateAfter_clrLatch (s : State) :
    stateAfter [.clrLatch] s = some (s.finish (clearLatch s.block) none) := rfl

@[simp] theorem selReturned_answer (s : State) (v : SelWord) : selReturned (s.answer (.sel v)) = some v := rfl

/-- Looking at LATCH, in either order, returns it and keeps SEL and PREV. -/
theorem stateAfter_latchLook (order : ClearOrder) (s : State) :
    ∃ t, stateAfter [latchLook order] s = some t ∧ bitReturned t = some s.block.latch ∧
      t.block.sel = s.block.sel ∧ t.block.prev = s.block.prev := by
  cases order <;> exact ⟨_, rfl, rfl, rfl, rfl⟩

end Sys2Proof.Machine
end

