-- ==== Sys2Proof/Laws/PerInstr.lean ====
section
/-! SUPPORT. Statements made of every operation, one lemma per constructor of Instr. -/

namespace Sys2Proof.Laws.EncodesCanonically

/-- The encoding of an operation has every ignored bit 0 (30_encoding.md R55). -/
def Statement (i : Instr) : Prop := ignoredBitsZero (encode i) = true

theorem reset : Statement .reset := rfl
theorem hold : Statement .hold := rfl
theorem clrLatch : Statement .clrLatch := rfl
theorem take (o : Option Sample) : Statement (.take o) := by cases o <;> rfl
theorem tick (v : Sample) : Statement (.tick v) := by revert v; unfold Statement; decide
theorem tickClr (v : Sample) : Statement (.tickClr v) := by revert v; unfold Statement; decide
theorem rdSel : Statement .rdSel := rfl
theorem rdLatch : Statement .rdLatch := rfl
theorem rdSmp : Statement .rdSmp := rfl
theorem rdBtn : Statement .rdBtn := rfl
theorem rdSw : Statement .rdSw := rfl
theorem pinA (v : Sample) : Statement (.pinA v) := rfl
theorem pinB (v : Sample) : Statement (.pinB v) := rfl
theorem btn (v : Sample) : Statement (.btn v) := rfl
theorem sw (v : Sample) : Statement (.sw v) := rfl
theorem riseA (q : QuadIndex) : Statement (.riseA q) := rfl
theorem rotCw (q : QuadIndex) : Statement (.rotCw q) := rfl
theorem rotCcw (q : QuadIndex) : Statement (.rotCcw q) := rfl
theorem rotNoneALow (q : QuadIndex) : Statement (.rotNoneALow q) := rfl
theorem rotNoneAHigh (q : QuadIndex) : Statement (.rotNoneAHigh q) := rfl
theorem pressEdge (b : ButtonIndex) : Statement (.pressEdge b) := rfl
theorem pressNoneLow (b : ButtonIndex) : Statement (.pressNoneLow b) := rfl
theorem pressNoneHeld (b : ButtonIndex) : Statement (.pressNoneHeld b) := rfl

end Sys2Proof.Laws.EncodesCanonically
end

