-- ==== Sys2Proof/Tests/Slice0.lean ====
section
/-! SUPPORT. The model's own tests: the check of well-formedness, words written out from 30_encoding.md, the
vectors of 95_test_vectors.md, and a witness for every statement that has hypotheses. -/

namespace Sys2Proof.Tests

open Sys2Proof.Machine

/-- A machine with the given registers, nothing presented and nothing returned. -/
def st (sel : SelWord) (latch : Bool) (prev : Sample) : State :=
  { block := { sel := sel, latch := latch, prev := prev }, trace := [], ret := none }

/-- The registers and the value returned by an outcome. -/
def after (o : Host.Outcome State Fault Refusal) : Option (Block × Option Returned) :=
  match o with
  | .next t => some (t.block, t.ret)
  | .fault _ => none
  | .refused _ => none

/-- The registers and the value returned, written out. -/
def gives (sel : SelWord) (latch : Bool) (prev : Sample) (r : Option Returned) : Option (Block × Option Returned) :=
  some ({ sel := sel, latch := latch, prev := prev }, r)

-- ---- Well-formedness: one ill-formed term per check (R50, R51) ----

theorem test_ill_formed_rotCw : (Instr.rotCw 0b0001#4).wellFormed = false := by decide
theorem test_ill_formed_rotCcw : (Instr.rotCcw 0b0011#4).wellFormed = false := by decide
theorem test_ill_formed_rotNoneALow : (Instr.rotNoneALow 0b0101#4).wellFormed = false := by decide
theorem test_ill_formed_rotNoneAHigh : (Instr.rotNoneAHigh 0b0011#4).wellFormed = false := by decide
theorem test_ill_formed_pressEdge : (Instr.pressEdge 0b11#2).wellFormed = false := by decide
theorem test_ill_formed_pressNoneLow : (Instr.pressNoneLow 0b01#2).wellFormed = false := by decide
theorem test_ill_formed_pressNoneHeld : (Instr.pressNoneHeld 0b10#2).wellFormed = false := by decide

-- ---- Decoding: words written out from R49, R50, R51, and the list of 95_test_vectors.md 2.5 ----

theorem test_decode_reset : decode (.ctl 0b1000000#7) = .reset := by decide
theorem test_decode_reset_overrides : decode (.ctl 0b1111111#7) = .reset := by decide
theorem test_decode_hold_ignores_sample : decode (.ctl 0b0001010#7) = .hold := by decide
theorem test_decode_clrLatch : decode (.ctl 0b0011100#7) = .clrLatch := by decide
theorem test_decode_tick : decode (.ctl 0b0101011#7) = .tick 0b1011#4 := by decide
theorem test_decode_tickClr : decode (.ctl 0b0110101#7) = .tickClr 0b0101#4 := by decide
theorem test_decode_take : decode (.ctlKeep false 0b0000#4) = .take none := by decide
theorem test_decode_take_tick : decode (.ctlKeep true 0b0100#4) = .take (some 0b0100#4) := by decide
theorem test_decode_rdSel : decode (.out .selO) = .rdSel := by decide
theorem test_decode_rdLatch : decode (.out .latchO) = .rdLatch := by decide
theorem test_decode_rdSmp : decode (.out .smpO) = .rdSmp := by decide
theorem test_decode_rdBtn : decode (.out .smpBtn) = .rdBtn := by decide
theorem test_decode_rdSw : decode (.out .smpSw) = .rdSw := by decide
theorem test_decode_pinA : decode (.fx .a 0b0110#4) = .pinA 0b0110#4 := by decide
theorem test_decode_pinB : decode (.fx .b 0b0110#4) = .pinB 0b0110#4 := by decide
theorem test_decode_btn : decode (.fx .btn 0b0110#4) = .btn 0b0110#4 := by decide
theorem test_decode_sw : decode (.fx .sw 0b0110#4) = .sw 0b0110#4 := by decide
theorem test_decode_riseA : decode (.riseA 0b1001#4) = .riseA 0b1001#4 := by decide
theorem test_decode_rotCw : decode (.rot 0b1011#4) = .rotCw 0b1011#4 := by decide
theorem test_decode_rotCcw : decode (.rot 0b1001#4) = .rotCcw 0b1001#4 := by decide
theorem test_decode_rotNoneALow : decode (.rot 0b0100#4) = .rotNoneALow 0b0100#4 := by decide
theorem test_decode_rotNoneAHigh : decode (.rot 0b1111#4) = .rotNoneAHigh 0b1111#4 := by decide
theorem test_decode_pressEdge : decode (.press 0b01#2) = .pressEdge 0b01#2 := by decide
theorem test_decode_pressNoneLow : decode (.press 0b10#2) = .pressNoneLow 0b10#2 := by decide
theorem test_decode_pressNoneHeld : decode (.press 0b11#2) = .pressNoneHeld 0b11#2 := by decide
theorem test_decode_bytes : decodeBytes [0x23#8, 0x40#8] = .ok (.tick 0b0011#4, [0x40#8]) := by rfl
theorem test_decode_bit_seven : decodeBytes [0xA3#8] = .error .bitSevenSet := by rfl
theorem test_decode_no_byte : decodeBytes [] = .error .noByte := by rfl
theorem test_table_word : decodeTableWord 8 0x2B = some (.tick 0b1011#4) := by decide
theorem test_table_word_refused : decodeTableWord 8 0x80 = none := by decide
theorem test_fetch_word : after (step (State.reset.withFetchWord 8 0x27)) = gives 1 true 0b0111 none := by decide

-- ---- Operands: R46, R47, R50 ----

theorem test_sample_of_byte : sampleOfByte 0xA6#8 = 0b0110#4 := by decide
theorem test_sample_of_lines : sampleOfLines true false true false = 0b1010#4 := by decide
theorem test_reserved_delta_code : deltaOfCode 0b10#2 = none := by decide
theorem test_word_of_inputs :
    wordOfInputs { rst := false, tick := true, clr := true, encIn := 0b0101#4 } = 0x35#7 := by decide

-- ---- Meanings: the vectors of 95_test_vectors.md sections 1 and 2 ----

theorem test_reset : after (exec .reset (st 5 true 0b0111)) = gives 0 false 0b0000 none := by decide
theorem test_hold : after (exec .hold (st 4 true 0b0011)) = gives 4 true 0b0011 none := by decide
theorem test_clrLatch : after (exec .clrLatch (st 5 true 0b0100)) = gives 5 false 0b0100 none := by decide
theorem test_take : after (exec (.take none) (st 5 true 0b0000)) = gives 5 false 0b0000 (some (.bit true)) := by
  decide
theorem test_take_with_tick : after (exec (.take (some 0b0100#4)) (st 2 true 0b0000)) =
    gives 2 true 0b0100 (some (.bit true)) := by decide
theorem test_tick_overshoot_dropped :
    after (exec (.tick 0b0011#4) (st 7 false 0b0010)) = gives 7 false 0b0011 none := by decide
theorem test_tick_clamp_low :
    after (exec (.tick 0b0011#4) (st 0xFD false 0b0010)) = gives 0 false 0b0011 none := by decide
theorem test_tickClr_keeps_new_press :
    after (exec (.tickClr 0b0100#4) (st 2 true 0b0000)) = gives 2 true 0b0100 none := by decide
theorem test_tickClr_at_bound :
    after (exec (.tickClr 0b0111#4) (st 7 true 0b0110)) = gives 7 false 0b0111 none := by decide
theorem test_rdSel : after (exec .rdSel (st 5 true 0b0100)) = gives 5 true 0b0100 (some (.sel 5)) := by decide
theorem test_rdLatch : after (exec .rdLatch (st 5 true 0b0100)) = gives 5 true 0b0100 (some (.bit true)) := by decide
theorem test_rdSmp : after (exec .rdSmp (st 5 true 0b0100)) = gives 5 true 0b0100 (some (.sample 0b0100)) := by
  decide
theorem test_rdBtn : after (exec .rdBtn (st 5 true 0b0100)) = gives 5 true 0b0100 (some (.bit true)) := by decide
theorem test_rdSw : after (exec .rdSw (st 5 true 0b1000)) = gives 5 true 0b1000 (some (.bit true)) := by decide
theorem test_pinA : after (exec (.pinA 0b0110#4) (st 0 false 0)) = gives 0 false 0 (some (.bit false)) := by decide
theorem test_pinB : after (exec (.pinB 0b0110#4) (st 0 false 0)) = gives 0 false 0 (some (.bit true)) := by decide
theorem test_btn : after (exec (.btn 0b1011#4) (st 0 false 0)) = gives 0 false 0 (some (.bit false)) := by decide
theorem test_sw : after (exec (.sw 0b1001#4) (st 0 false 0)) = gives 0 false 0 (some (.bit true)) := by decide
theorem test_riseA : after (exec (.riseA (quadIndex 0b0011 0b0001)) (st 0 false 0)) =
    gives 0 false 0 (some (.bit false)) := by decide
theorem test_rotCw : after (exec (.rotCw 0b0011#4) (st 0 false 0)) = gives 0 false 0 (some (.delta .cw)) := by decide
theorem test_rotCcw : after (exec (.rotCcw 0b0001#4) (st 0 false 0)) = gives 0 false 0 (some (.delta .ccw)) := by
  decide
theorem test_rotNoneALow : after (exec (.rotNoneALow 0b0100#4) (st 0 false 0)) =
    gives 0 false 0 (some (.delta .zero)) := by decide
theorem test_rotNoneAHigh : after (exec (.rotNoneAHigh 0b1101#4) (st 0 false 0)) =
    gives 0 false 0 (some (.delta .zero)) := by decide
theorem test_pressEdge : after (exec (.pressEdge 0b01#2) (st 0 false 0)) = gives 0 false 0 (some (.bit true)) := by
  decide
theorem test_pressNoneLow : after (exec (.pressNoneLow 0b10#2) (st 0 false 0)) =
    gives 0 false 0 (some (.bit false)) := by decide
theorem test_pressNoneHeld : after (exec (.pressNoneHeld 0b11#2) (st 0 false 0)) =
    gives 0 false 0 (some (.bit false)) := by decide
theorem test_rot_high_bits_ignored : rot 0b1101#4 0b0000#4 = .ccw ∧ rot 0b0011#4 0b1100#4 = .cw := by decide
theorem test_rot_fall_is_nothing : rot 0b0110#4 0b0111#4 = .zero ∧ rot 0b0000#4 0b0001#4 = .zero := by decide
theorem test_menu_label_slot_four : menuLabel 4#8 = some "FLASH LEDS" := by decide
/-- Program P7 of 95_test_vectors.md: one clockwise detent and one push within the action. -/
def p7Gaps : Interleaving := { afterDraw := [], beforeSelect := [], inAction := ticks (cwSamples ++ pushSamples), inDelay := [] }
theorem test_P7_clear_after_action :
    (runIteration .afterAction (-1) 3 p7Gaps (st 3 true 0)).map
      (fun r => (r.state.block, r.redrew, r.acted, r.marker)) =
    some ({ sel := 4, latch := false, prev := 0 }, false, some 3, -1) := by decide
theorem test_P7_clear_before_action :
    (runIteration .beforeAction (-1) 3 p7Gaps (st 3 true 0)).map
      (fun r => (r.state.block, r.redrew, r.acted, r.marker)) =
    some ({ sel := 4, latch := true, prev := 0 }, false, some 3, -1) := by decide
theorem test_P7_next_iteration :
    (runIteration .afterAction (-1) (-1) ⟨[], [], [], []⟩ (st 4 false 0)).map
      (fun r => (r.redrew, r.acted, r.marker)) = some (true, none, 4) := by decide
theorem test_idle_push_samples : ticks (pushSamples ++ idleSamples) =
    [.tick 0b0100#4, .tick 0b0000#4, .tick 0b0000#4] := by decide

-- ---- Witnesses: for each statement with hypotheses, a case that meets them all ----

theorem witness_StepRunsDecodedStimulus :
    ({ st 0 false 0 with trace := [.ctl 0x23#7] } : State).trace = .ctl 0x23#7 :: [] ∧ (st 0 false 0).trace = [] :=
  ⟨rfl, rfl⟩
theorem witness_DecodeInvertsEncode : (Instr.rotCw 0b1011#4).wellFormed = true := by decide
theorem witness_EncodeInvertsDecode : ignoredBitsZero (.ctl 0x2F#7) = true := by decide
theorem witness_TakeIsAClearOnTheWires :
    decode (.ctlKeep false 0xF#4) = .take none ∧ decode (.ctlKeep true 0xF#4) = .take (some 0xF#4) := by decide
theorem witness_ResetHasItsWholeEffect :
    (0x7F#7).getLsbD 6 = true ∧ exec .reset (st 5 true 0b0111) = .next (st 0 false 0) ∧
    (inputsOfWord 0x7F#7).rst = true := ⟨by decide, rfl, by decide⟩
theorem witness_HoldKeepsEveryRegister : (st 5 true 0b0111).trace = [] := rfl
theorem witness_ClrLatchClearsAndDoesNotRearm :
    (st 5 true 0b0100).block.prev.getLsbD 2 = true ∧
    (∀ v ∈ [0b0100#4, 0b0101#4], (v : Sample).getLsbD 2 = true) ∧
    (∀ v ∈ [0b0000#4, 0b0011#4], (v : Sample).getLsbD 2 = false) ∧
    (∀ v ∈ ([] : List Sample), v.getLsbD 2 = false) ∧ (0b0100#4).getLsbD 2 = true := by decide
theorem witness_RotRowsAnswerTheirDelta :
    (Instr.rotCw 0b0011#4).wellFormed = true ∧ (Instr.rotCcw 0b1001#4).wellFormed = true ∧
    (Instr.rotNoneALow 0b1110#4).wellFormed = true ∧ (Instr.rotNoneAHigh 0b0101#4).wellFormed = true := by decide
theorem witness_PressRowsAnswerTheirEvent :
    (Instr.pressEdge 0b01#2).wellFormed = true ∧ (Instr.pressNoneLow 0b10#2).wellFormed = true ∧
    (Instr.pressNoneHeld 0b11#2).wellFormed = true := by decide
theorem witness_DeltaCodesAndExtension :
    deltaOfCode 0b11#2 = some .ccw ∧
    0 ≤ (7#8).toInt ∧ (7#8).toInt ≤ 7 ∧ 0 ≤ (7#8).toInt + deltaInt .ccw ∧ (7#8).toInt + deltaInt .ccw ≤ 7 := by
  decide
theorem witness_StepKeepsSelInRange :
    SelInRange (st 7 true 0b0111).block ∧ step (st 7 true 0b0111) = .next (st 7 true 0b0111) := ⟨by decide, rfl⟩
theorem witness_OneTickRecovers :
    (st 0x80 false 0).block.sel.toInt < 0 ∧ (st 0xFF false 0).block.sel.toInt < 0 ∧
    7 < (st 8 false 0).block.sel.toInt ∧ 7 < (st 0x7F false 0).block.sel.toInt := by decide
theorem witness_SelFollowsItsTable :
    (st 0xFF false 0).block.sel.toInt < 0 ∧ 7 < (st 8 false 0).block.sel.toInt ∧
    SelInRange (st 0 false 0).block ∧ SelInRange (st 7 false 0).block := by decide
theorem witness_RotLawsOverSequences :
    (0b0111#4 &&& 0b0011#4 = 0b1011#4 &&& 0b0011#4 ∧ (0b0010#4).getLsbD 0 = (0b1100#4).getLsbD 0) ∧
    rot 0b0011#4 0b0010#4 ≠ .zero ∧ (0b1100#4 : Sample) &&& 0b0011#4 = 0b0000#4 := by decide
theorem witness_HeldButtonPressesOnce : ∀ u ∈ [0b0100#4, 0b0110#4], (u : Sample).getLsbD 2 = true := by decide
theorem witness_OneSidedTurnsSaturate :
    SelInRange (st 6 false 0).block ∧ Delta.ccw ∉ deltas (st 6 false 0).block.prev (times 2 cwSamples) ∧
    SelInRange (st 1 false 0).block ∧ Delta.cw ∉ deltas (st 1 false 0).block.prev (times 2 ccwSamples) := by decide
theorem witness_SaturationIsNotOwedBack :
    ((st 7 false 0).block.sel = 0x07#8 ∧ Delta.ccw ∉ deltas (st 7 false 0).block.prev cwSamples ∧
      rot 0b0001#4 0b0000#4 = .ccw) ∧
    ((st 0 false 0).block.sel = 0x00#8 ∧ Delta.cw ∉ deltas (st 0 false 0).block.prev ccwSamples ∧
      rot 0b0011#4 0b0000#4 = .cw) := by decide
theorem witness_RepeatedSampleIsIdle :
    SelInRange (st 3 false 0b0010).block ∧ exec (.tick 0b0111#4) (st 3 false 0b0010) = .next (st 4 true 0b0111) :=
  ⟨by decide, rfl⟩
theorem witness_DetentsCountOnce :
    SelInRange (st 7 true 0).block ∧ (st 7 true 0).block.prev = 0b0000#4 := by decide
theorem witness_ChatterOnARunsAway : SelInRange (st 0 false 0b0001).block := by decide
theorem witness_LatchPersistsWithoutAClear :
    (st 3 true 0).block.latch = true ∧ ∀ i ∈ [Instr.tick 0b0100#4, .rdLatch],
      i ≠ .reset ∧ i ≠ .clrLatch ∧ (∀ t, i ≠ .take t) ∧ (∀ v, i ≠ .tickClr v) := by simp [st]
theorem witness_LatchIsSetOnlyByAPress :
    exec (.tick 0b0111#4) (st 3 false 0b0010) = .next (st 4 true 0b0111) ∧
    (st 3 false 0b0010).block.latch = false ∧ (st 4 true 0b0111).block.latch = true := ⟨rfl, rfl, rfl⟩
theorem witness_ClearRuleFindsLatchSet :
    keepsClearRule false [.tick 0b0100#4, .rdLatch, .clrLatch, .take none] (st 0 false 0) = true := by decide
theorem witness_AgentsKeepTheirRights :
    (exec .clrLatch (st 5 true 0b0100) = .next (st 5 false 0b0100) ∧ Agent.integrator ∉ agents .clrLatch ∧
      Agent.sampler ∉ agents .clrLatch) ∧
    (exec (.tick 0b0100#4) (st 5 true 0b0100) = .next (st 5 true 0b0100) ∧
      Agent.integrator ∉ agents (.tick 0b0100#4) ∧ Agent.consumer ∉ agents (.tick 0b0100#4) ∧
      (st 5 true 0b0100).block.latch = true) := ⟨⟨rfl, by decide, by decide⟩, rfl, by decide, by decide, rfl⟩
theorem witness_LatchInfluencesNoOtherRegister :
    (st 5 true 0b0100).block.sel = (st 5 false 0b0100).block.sel ∧
    (st 5 true 0b0100).block.prev = (st 5 false 0b0100).block.prev := by decide
theorem witness_SwitchInfluencesNothing :
    [0b0011#4, 0b1100#4].map (fun v : Sample => v &&& 0b0111#4) =
      [0b1011#4, 0b0100#4].map (fun v : Sample => v &&& 0b0111#4) ∧
    (st 5 true 0b1000).block.sel = (st 5 true 0b0000).block.sel ∧
    (st 5 true 0b1000).block.latch = (st 5 true 0b0000).block.latch ∧
    (st 5 true 0b1000).block.prev &&& 0b0111#4 = (st 5 true 0b0000).block.prev &&& 0b0111#4 := by decide
theorem witness_UnsetMarkerForcesRedraw :
    Config.markerLegal (-1) ∧ Config.markerLegal 8 ∧ SelInRange (st 7 false 0).block := by decide

theorem witness_ActionSlotDriftsByTheDeltasBetweenReads :
    (SelInRange (st 7 true 0).block ∧
      ((st 7 true 0).block.latch || (presses (st 7 true 0).block.prev []).any id) = true) ∧
    (SelInRange (st 0 false 0).block ∧
      ((st 0 false 0).block.latch || (presses (st 0 false 0).block.prev pushSamples).any id) = true) := by decide
theorem witness_LabelAndActionMayDiffer :
    (st 2 true 0b0010).block.latch = true ∧ (st 2 true 0b0010).block.sel = 0x02#8 ∧
    (st 2 true 0b0010).block.prev = 0b0010#4 ∧
    Interleaving.mk [] (ticks [0b0011#4]) [] [] ∈
      [Interleaving.mk (ticks [0b0011#4]) [] [] [], Interleaving.mk [] (ticks [0b0011#4]) [] []] := by decide

end Sys2Proof.Tests
end

section
/-! Totality of the block (00_scope.md R8): every operation ends by committing registers and a returned value, and a
step is one operation. -/

namespace Sys2Proof.Machine

/-- Every operation, on every path, reaches the commit that ends it, State.finish (R7): nothing refuses, and beside
the registers and the returned value the state is kept. TAKE alone has two paths, one per form (R96, R98). -/
theorem exec_finishes (i : Instr) (s : State) : ∃ b r, exec i s = .next (s.finish b r) := by
  cases i
  case take form =>
    cases form with
    | none => exact ⟨_, _, rfl⟩
    | some v => exact ⟨_, _, rfl⟩
  all_goals exact ⟨_, _, rfl⟩

/-- With no stimulus left, a step is a HOLD (R97). -/
theorem step_of_trace_nil {s : State} (h : s.trace = []) : step s = exec .hold s := by
  simp only [step, h]

/-- With stimulus left, a step performs what its first entry presents. -/
theorem step_of_trace_cons {s : State} {stim : Stimulus} {rest : List Stimulus} (h : s.trace = stim :: rest) :
    step s = exec (decode stim) { s with trace := rest } := by
  simp only [step, h]

theorem exec_completes (i : Instr) (s : State) : ∃ t, exec i s = .next t := by
  obtain ⟨b, r, h⟩ := exec_finishes i s
  exact ⟨_, h⟩

theorem step_completes (s : State) : ∃ t, step s = .next t := by
  cases htrace : s.trace with
  | nil => rw [step_of_trace_nil htrace]; exact exec_completes _ _
  | cons stim rest => rw [step_of_trace_cons htrace]; exact exec_completes _ _

/-- Settles O23: a case split on the operation for exec, and on the trace for a step. -/
theorem everyOperationCompletes : Obligations.EveryOperationCompletes :=
  ⟨exec_completes, step_completes⟩

end Sys2Proof.Machine
end

section
/-! What one operation leaves in each register, as a function of the registers before it (10_state.md R20, R22): the
range invariant, the rights of the agents and the independence from LATCH are read off from these three equations. -/

namespace Sys2Proof.Machine

theorem writesBlock_eq_false_iff {i : Instr} :
    writesBlock i = false ↔ clears i = false ∧ sampleTaken i = none := by
  simp [writesBlock]

theorem ne_reset_of_not_clears {i : Instr} (h : clears i = false) : i ≠ .reset := by
  rintro rfl
  cases h

/-- The effect of every operation, register by register. SEL and PREV are written by RESET and by a tick alone
(R11, R13); LATCH outlives what does not clear, and a press of the operation's own tick sets it, the clear having
come first (R12, R98). -/
theorem exec_registers {i : Instr} {s t : State} (h : exec i s = .next t) :
    (t.block.sel = if i = .reset then 0#8
      else (sampleTaken i).elim s.block.sel fun v => selNext s.block.sel (rot v s.block.prev)) ∧
    t.block.latch = ((s.block.latch && !clears i) || (sampleTaken i).any (press · s.block.prev)) ∧
    (t.block.prev = if i = .reset then 0b0000#4 else (sampleTaken i).getD s.block.prev) := by
  obtain ⟨-, ⟨hw, hb⟩ | ⟨rfl, hb⟩ | ⟨hi, hc, hv, hb⟩ | ⟨v, hi, hv, hb⟩⟩ := exec_cases h
  · obtain ⟨hc, hv⟩ := writesBlock_eq_false_iff.mp hw
    simp [hb, hc, hv, ne_reset_of_not_clears hc]
  · simp [hb, clears, sampleTaken, Block.reset]
  · simp [hb, hi, hc, hv]
  · cases hc : clears i <;> simp [hb, hi, hc, hv]

theorem exec_sel {i : Instr} {s t : State} (h : exec i s = .next t) :
    t.block.sel = if i = .reset then 0#8
      else (sampleTaken i).elim s.block.sel fun v => selNext s.block.sel (rot v s.block.prev) :=
  (exec_registers h).1

theorem exec_latch {i : Instr} {s t : State} (h : exec i s = .next t) :
    t.block.latch = ((s.block.latch && !clears i) || (sampleTaken i).any (press · s.block.prev)) :=
  (exec_registers h).2.1

theorem exec_prev {i : Instr} {s t : State} (h : exec i s = .next t) :
    t.block.prev = if i = .reset then 0b0000#4 else (sampleTaken i).getD s.block.prev :=
  (exec_registers h).2.2

end Sys2Proof.Machine
end

section
/-! The one induction over a sequence of operations: what every operation keeps, every run keeps, whether it is a
relation between two runs of the same operations or a property of one run. -/

namespace Sys2Proof.Machine

theorem execAll_cons_of_exec {i : Instr} {s t : State} (h : exec i s = .next t) (is : List Instr) :
    execAll (i :: is) s = execAll is t := by
  simp only [execAll, h]

theorem execAll_keeps_relation {R : Block → Block → Prop}
    (hexec : ∀ {i : Instr} {s s' t t' : State}, exec i s = .next t → exec i s' = .next t' →
      R s.block s'.block → R t.block t'.block)
    (ops : List Instr) (s s' : State) (hR : R s.block s'.block) :
    ∃ t t', execAll ops s = .next t ∧ execAll ops s' = .next t' ∧ R t.block t'.block := by
  induction ops generalizing s s' with
  | nil => exact ⟨s, s', rfl, rfl, hR⟩
  | cons i is ih =>
    obtain ⟨u, hu⟩ := exec_completes i s
    obtain ⟨u', hu'⟩ := exec_completes i s'
    rw [execAll_cons_of_exec hu, execAll_cons_of_exec hu']
    exact ih u u' (hexec hu hu' hR)

theorem execAll_keeps {P : Block → Prop}
    (hexec : ∀ {i : Instr} {s t : State}, exec i s = .next t → P s.block → P t.block)
    (ops : List Instr) (s : State) (hP : P s.block) : ∃ t, execAll ops s = .next t ∧ P t.block := by
  obtain ⟨t, -, ht, -, hPt⟩ := execAll_keeps_relation (R := fun b _ => P b) (fun h _ => hexec h) ops s s hP
  exact ⟨t, ht, hPt⟩

end Sys2Proof.Machine
end

section
/-! Reset values and the range of SEL (10_state.md R14, R18). -/

namespace Sys2Proof.Machine

/-- Settles O7: RESET commits Block.reset, which holds the values of R18. -/
theorem resetLeavesStatedValues : Obligations.ResetLeavesStatedValues :=
  ⟨fun _ => ⟨_, rfl, rfl⟩, rfl⟩

/-- Settles O25: SEL is 0 after reset. -/
theorem resetSelIsInRange : Obligations.ResetSelIsInRange := by
  unfold Obligations.ResetSelIsInRange
  decide

/-- Whatever SEL held, the update of R73 stores a value in range. -/
theorem selNext_inRange (sel : SelWord) (d : Delta) : 0 ≤ (selNext sel d).toInt ∧ (selNext sel d).toInt ≤ 7 := by
  rw [selNext_toInt]
  split_ifs <;> omega

theorem tickBlock_selInRange (v : Sample) (b : Block) : SelInRange (tickBlock v b) :=
  selNext_inRange b.sel (rot v b.prev)

/-- The invariant's step: RESET stores 0, a tick stores a value in range, and everything else keeps SEL. -/
theorem exec_keeps_selInRange {i : Instr} {s t : State} (h : exec i s = .next t) (hs : SelInRange s.block) :
    SelInRange t.block := by
  rw [selInRange_iff, exec_sel h]
  split
  case isTrue => decide
  case isFalse =>
    cases sampleTaken i with
    | none => exact hs
    | some v => exact selNext_inRange _ _

/-- Settles O26: the reset state is in range and every operation keeps it so; a TICK needs no premise. -/
theorem reachableSelIsInRange : Obligations.ReachableSelIsInRange := by
  refine ⟨fun s ops => ?_, fun v s => ⟨_, rfl, tickBlock_selInRange v s.block⟩⟩
  have hreset : exec .reset s = .next (s.finish Block.reset none) := rfl
  rw [execAll_cons_of_exec hreset]
  exact execAll_keeps exec_keeps_selInRange ops _ resetSelIsInRange

end Sys2Proof.Machine
end

section
/-! Who may change which register (10_state.md R20, R22; 60_exceptions.md R128). -/

namespace Sys2Proof.Machine

theorem integrator_mem_agents_iff {i : Instr} : Agent.integrator ∈ agents i ↔ i = .reset := by
  cases i
  case take form => cases form <;> simp [agents]
  all_goals simp [agents]

theorem sampler_mem_agents_iff {i : Instr} : Agent.sampler ∈ agents i ↔ sampleTaken i ≠ none := by
  cases i
  case take form => cases form <;> simp [agents, sampleTaken]
  all_goals simp [agents, sampleTaken]

/-- Every clear but RESET's is the consumer's. -/
theorem consumer_mem_agents_of_clears {i : Instr} (hi : i ≠ .reset) (hc : clears i = true) :
    Agent.consumer ∈ agents i := by
  cases i
  case reset => exact absurd rfl hi
  case clrLatch => simp [agents]
  case take form => cases form <;> simp [agents]
  case tickClr => simp [agents]
  all_goals cases hc

/-- Settles O42: without the integrator the operation is no RESET, without the sampler it takes no sample, without
the consumer it clears nothing; the three register equations say the rest. -/
theorem agentsKeepTheirRights : Obligations.AgentsKeepTheirRights := by
  intro i s t h hint
  have hi : i ≠ .reset := mt integrator_mem_agents_iff.mpr hint
  constructor
  · intro hsampler
    have hv : sampleTaken i = none := not_not.mp (mt sampler_mem_agents_iff.mpr hsampler)
    refine ⟨by simp [exec_sel h, hi, hv], by simp [exec_prev h, hi, hv], fun hlatch => ?_⟩
    have hkept : s.block.latch = true ∧ clears i = false := by simpa [exec_latch h, hv] using hlatch
    exact hkept.1
  · intro hconsumer hlatch
    have hc : clears i = false := Bool.eq_false_iff.mpr (mt (consumer_mem_agents_of_clears hi) hconsumer)
    simp [exec_latch h, hc, hlatch]

/-- The registers other than LATCH agree. -/
def SameSelPrev (b c : Block) : Prop := b.sel = c.sel ∧ b.prev = c.prev

/-- SEL and PREV after an operation are given by SEL and PREV before it: LATCH stands in neither equation. -/
theorem exec_keeps_sameSelPrev {i : Instr} {s s' t t' : State} (h : exec i s = .next t) (h' : exec i s' = .next t')
    (hsame : SameSelPrev s.block s'.block) : SameSelPrev t.block t'.block := by
  obtain ⟨hsel, hprev⟩ := hsame
  exact ⟨by rw [exec_sel h, exec_sel h', hsel, hprev], by rw [exec_prev h, exec_prev h', hprev]⟩

/-- Settles O43: agreement on SEL and PREV is kept by every operation, so by every run. -/
theorem latchInfluencesNoOtherRegister : Obligations.LatchInfluencesNoOtherRegister :=
  fun ops s s' hsel hprev => execAll_keeps_relation exec_keeps_sameSelPrev ops s s' ⟨hsel, hprev⟩

end Sys2Proof.Machine
end

section
/-! A step and its stimulus (20_memory.md R35): every presented entry decodes to a row of the table (30_encoding.md
R52), and no operation looks at the stimulus still to come, so a run of the machine is the run of the decoded
operations. -/

namespace Sys2Proof.Machine

theorem decodeStepWord_wellFormed (w : StepWord) : (decodeStepWord w).wellFormed = true := by
  unfold decodeStepWord
  split_ifs <;> rfl

/-- Each test of the decoder is the test of the row it answers; the last row is left when the other three fail. -/
theorem decodeRot_wellFormed (q : QuadIndex) : (decodeRot q).wellFormed = true := by
  unfold decodeRot
  split_ifs with hcw hccw hlow
  · exact hcw
  · exact hccw
  · exact hlow
  · revert q
    decide

/-- Each test of the decoder is the test of the row it answers; the last row is left when the other two fail. -/
theorem decodePress_wellFormed (b : ButtonIndex) : (decodePress b).wellFormed = true := by
  unfold decodePress
  split_ifs with hedge hlow
  · exact hedge
  · exact hlow
  · revert b
    decide

theorem decode_wellFormed (stim : Stimulus) : (decode stim).wellFormed = true := by
  cases stim with
  | ctl w => exact decodeStepWord_wellFormed w
  | ctlKeep tick encIn => cases tick <;> rfl
  | out port => cases port <;> rfl
  | fx line v => cases line <;> rfl
  | riseA q => rfl
  | rot q => exact decodeRot_wellFormed q
  | press b => exact decodePress_wellFormed b

/-- Settles O1: the decoder answers only rows of the table, and the two cases of the trace are those of step. -/
theorem stepRunsDecodedStimulus : Obligations.StepRunsDecodedStimulus :=
  ⟨fun _ stim _ htrace => ⟨decode_wellFormed stim, step_of_trace_cons htrace⟩, fun _ => step_of_trace_nil⟩

/-- An operation neither reads the trace nor writes it: under another trace it does the same. -/
theorem exec_withTrace {i : Instr} {s t : State} (h : exec i s = .next t) (tr : List Stimulus) :
    exec i { s with trace := tr } = .next { t with trace := tr } := by
  cases i
  case take form => cases form <;> cases h <;> rfl
  all_goals
    cases h
    rfl

theorem run_succ_of_step {s t : State} (h : step s = .next t) (k : Nat) :
    Host.Core.run Sys2Proof.core (k + 1) s = Host.Core.run Sys2Proof.core k t := by
  simp only [Host.Core.run, show Sys2Proof.core.step s = .next t from h]

/-- The first step leaves the rest of the trace to the other steps, and the operation it performs does the same when
no trace is there. -/
theorem run_eq_execAll (stims : List Stimulus) (s : State) (htrace : s.trace = stims) :
    Host.Core.run Sys2Proof.core stims.length s = execAll (stims.map decode) { s with trace := [] } := by
  induction stims generalizing s with
  | nil =>
    have hempty : { s with trace := [] } = s := by rw [← htrace]
    exact congrArg Host.Outcome.next hempty.symm
  | cons stim rest ih =>
    obtain ⟨t, hexec⟩ := exec_completes (decode stim) { s with trace := rest }
    obtain ⟨hrest, -⟩ := exec_cases hexec
    have hstep : step s = .next t := (step_of_trace_cons htrace).trans hexec
    have hexecAll : execAll ((stim :: rest).map decode) { s with trace := [] } =
        execAll (rest.map decode) { t with trace := [] } :=
      execAll_cons_of_exec (exec_withTrace hexec []) _
    rw [hexecAll]
    exact (run_succ_of_step hstep rest.length).trans (ih t hrest)

/-- Settles O49, by induction on the trace. -/
theorem runIsTheTotalOrder : Obligations.RunIsTheTotalOrder :=
  fun s => run_eq_execAll s.trace s rfl

end Sys2Proof.Machine
end

section
/-! What leaves no mark on the registers can be dropped from a run (20_memory.md R34; 42_consumer.md R97;
40_decode.md). -/

namespace Sys2Proof.Machine

/-- The registers after an operation are a function of the registers before it. -/
theorem exec_block_congr {i : Instr} {s s' t t' : State} (h : exec i s = .next t) (h' : exec i s' = .next t')
    (hb : s.block = s'.block) : t.block = t'.block :=
  Block.eq_of_fields _ _
    (by rw [exec_sel h, exec_sel h', hb])
    (by rw [exec_latch h, exec_latch h', hb])
    (by rw [exec_prev h, exec_prev h', hb])

theorem exec_block_of_not_writes {i : Instr} {s t : State} (h : exec i s = .next t) (hw : writesBlock i = false) :
    t.block = s.block := by
  obtain ⟨hc, hv⟩ := writesBlock_eq_false_iff.mp hw
  have hi := ne_reset_of_not_clears hc
  exact Block.eq_of_fields _ _ (by simp [exec_sel h, hi, hv]) (by simp [exec_latch h, hc, hv])
    (by simp [exec_prev h, hi, hv])

/-- The run and its writing subsequence, side by side from equal registers: a writing operation moves both alike, any
other moves the first run alone and leaves its registers. -/
theorem execAll_filter_writesBlock (ops : List Instr) (s s' : State) (hb : s.block = s'.block) :
    ∃ t u, execAll ops s = .next t ∧ execAll (ops.filter writesBlock) s' = .next u ∧ t.block = u.block := by
  induction ops generalizing s s' with
  | nil => exact ⟨s, s', rfl, rfl, hb⟩
  | cons i is ih =>
    obtain ⟨t, ht⟩ := exec_completes i s
    rw [execAll_cons_of_exec ht]
    cases hw : writesBlock i with
    | true =>
      obtain ⟨t', ht'⟩ := exec_completes i s'
      rw [List.filter_cons_of_pos hw, execAll_cons_of_exec ht']
      exact ih t t' (exec_block_congr ht ht' hb)
    | false =>
      rw [List.filter_cons_of_neg (by simp [hw])]
      exact ih t s' ((exec_block_of_not_writes ht hw).trans hb)

/-- Settles O45: both runs start from the same state. -/
theorem nonWritingOperationsDropOut : Obligations.NonWritingOperationsDropOut :=
  fun ops s => execAll_filter_writesBlock ops s s rfl

end Sys2Proof.Machine
end

section
/-! The outputs of a cycle show the registers before its edge (20_memory.md R36). -/

namespace Sys2Proof.Machine

/-- Settles O48, by induction on the cycles before: the first shows the registers as given, and each one more hands
the registers after its edge to the rest of the run. -/
theorem cycleOutputsShowEarlierWrites : Obligations.CycleOutputsShowEarlierWrites := by
  intro before now later b
  induction before generalizing b with
  | nil => rfl
  | cons i is ih => exact ih (cycle i b)

end Sys2Proof.Machine
end

section
/-! Step words (30_encoding.md R49): a step word is the inputs of one clock cycle laid side by side, and the operation
it selects is a function of its control bits. -/

namespace Sys2Proof.Machine

/-- The commanded operation of a cycle's inputs, in the priority of R49's table: rst over tick and clr. -/
def commandOf (i : Inputs) : Instr :=
  if i.rst then .reset
  else if i.tick then (if i.clr then .tickClr i.encIn else .tick i.encIn)
  else (if i.clr then .clrLatch else .hold)

theorem inputsOfWord_wordOfInputs (i : Inputs) : inputsOfWord (wordOfInputs i) = i := by
  obtain ⟨rst, tick, clr, encIn⟩ := i
  revert rst tick clr encIn
  decide

/-- The layout leaves no bit out: a step word is its three control bits and its sample. -/
theorem wordOfInputs_inputsOfWord (w : StepWord) : wordOfInputs (inputsOfWord w) = w := by
  revert w
  decide

theorem matchesRow_reset (w : StepWord) : matchesRow 0x40#7 0x40#7 w = w.getLsbD 6 := by
  revert w
  decide

theorem matchesRow_hold (w : StepWord) :
    matchesRow 0x70#7 0x00#7 w = (!w.getLsbD 6 && !w.getLsbD 5 && !w.getLsbD 4) := by
  revert w
  decide

theorem matchesRow_clrLatch (w : StepWord) :
    matchesRow 0x70#7 0x10#7 w = (!w.getLsbD 6 && !w.getLsbD 5 && w.getLsbD 4) := by
  revert w
  decide

theorem matchesRow_tick (w : StepWord) :
    matchesRow 0x70#7 0x20#7 w = (!w.getLsbD 6 && w.getLsbD 5 && !w.getLsbD 4) := by
  revert w
  decide

/-- The rows of R49 in bits: TICKCLR's is what the other four leave. -/
theorem decodeStepWord_eq_commandOf (w : StepWord) : decodeStepWord w = commandOf (inputsOfWord w) := by
  unfold decodeStepWord commandOf inputsOfWord
  simp only [matchesRow_reset, matchesRow_hold, matchesRow_clrLatch, matchesRow_tick]
  cases w.getLsbD 6
  case true => rfl
  case false => cases w.getLsbD 5 <;> cases w.getLsbD 4 <;> rfl

theorem decodeStepWord_wordOfInputs (i : Inputs) : decodeStepWord (wordOfInputs i) = commandOf i := by
  rw [decodeStepWord_eq_commandOf, inputsOfWord_wordOfInputs]

/-- Settles O3: commandOf is the statement's choice by control bits. -/
theorem stepWordSelectsByControlBits : Obligations.StepWordSelectsByControlBits :=
  decodeStepWord_eq_commandOf

end Sys2Proof.Machine
end

section
/-! Samples as four lines (30_encoding.md R45, R46). -/

namespace Sys2Proof.Machine

theorem sampleOfLines_getLsbD (line3 line2 line1 line0 : Bool) :
    (sampleOfLines line3 line2 line1 line0).getLsbD 3 = line3 ∧
      (sampleOfLines line3 line2 line1 line0).getLsbD 2 = line2 ∧
      (sampleOfLines line3 line2 line1 line0).getLsbD 1 = line1 ∧
      (sampleOfLines line3 line2 line1 line0).getLsbD 0 = line0 := by
  revert line3 line2 line1 line0
  decide

/-- Settles O16: the extractors are bit reads, and the layouts put each line and the sample's four bits where the reads
look. -/
theorem samplesAreFourLines : Obligations.SamplesAreFourLines := by
  refine ⟨fun v => ⟨rfl, rfl, rfl, rfl⟩, fun swLine btnLine b a => ?_, fun high v => ?_⟩
  · obtain ⟨hsw, hbtn, hb, ha⟩ := sampleOfLines_getLsbD swLine btnLine b a
    exact ⟨ha, hb, hbtn, hsw⟩
  · exact BitVec.extractLsb'_append_eq_right

end Sys2Proof.Machine
end

section
/-! The rows of the quadrature index (30_encoding.md R50; 40_decode.md R65), in the bits pB, pA, sB, sA. -/

namespace Sys2Proof.Machine

/-- Where one row of a list is all that matches, to be a matching row is to be that row. -/
theorem matching_row_iff {rows : List Instr} {row i : Instr} (honly : rows.filter Instr.wellFormed = [row]) :
    i ∈ rows ∧ i.wellFormed = true ↔ i = row := by
  rw [← List.mem_filter, honly, List.mem_singleton]

/-- The four rows of R50 at one index, in the table's order. -/
def rotRows (q : QuadIndex) : List Instr := [.rotCw q, .rotCcw q, .rotNoneALow q, .rotNoneAHigh q]

theorem rotCw_wellFormed (q : QuadIndex) :
    (Instr.rotCw q).wellFormed = (!q.getLsbD 2 && q.getLsbD 1 && q.getLsbD 0) := by
  revert q
  decide

theorem rotCcw_wellFormed (q : QuadIndex) :
    (Instr.rotCcw q).wellFormed = (!q.getLsbD 2 && !q.getLsbD 1 && q.getLsbD 0) := by
  revert q
  decide

theorem rotNoneALow_wellFormed (q : QuadIndex) : (Instr.rotNoneALow q).wellFormed = !q.getLsbD 0 := by
  revert q
  decide

theorem rotNoneAHigh_wellFormed (q : QuadIndex) :
    (Instr.rotNoneAHigh q).wellFormed = (q.getLsbD 2 && q.getLsbD 0) := by
  revert q
  decide

/-- On a rise of A the level of B gives the direction; without one there is none (R65). -/
theorem rotOfIndex_eq_bits (q : QuadIndex) :
    rotOfIndex q = if !q.getLsbD 2 && q.getLsbD 0 then (if q.getLsbD 1 then .cw else .ccw) else .zero := by
  revert q
  decide

/-- The row an index selects: A low; A high and no edge; or a rise, with the level of B (R50). -/
theorem decodeRot_eq_bits (q : QuadIndex) :
    decodeRot q =
      if q.getLsbD 0 then
        (if q.getLsbD 2 then .rotNoneAHigh q else if q.getLsbD 1 then .rotCw q else .rotCcw q)
      else .rotNoneALow q := by
  revert q
  decide

/-- The four patterns are disjoint and cover every index: one row matches, the decoded one. -/
theorem rotRows_filter_wellFormed (q : QuadIndex) : (rotRows q).filter Instr.wellFormed = [decodeRot q] := by
  simp only [rotRows, List.filter, rotCw_wellFormed, rotCcw_wellFormed, rotNoneALow_wellFormed,
    rotNoneAHigh_wellFormed, decodeRot_eq_bits]
  cases q.getLsbD 0
  case false => cases q.getLsbD 2 <;> cases q.getLsbD 1 <;> rfl
  case true => cases q.getLsbD 2 <;> cases q.getLsbD 1 <;> rfl

theorem decodeRot_eq_of_mem_rotRows {q : QuadIndex} {i : Instr} (hmem : i ∈ rotRows q)
    (hmatch : i.wellFormed = true) : decodeRot q = i :=
  ((matching_row_iff (rotRows_filter_wellFormed q)).mp ⟨hmem, hmatch⟩).symm

theorem decodeRot_mem_rotRows (q : QuadIndex) : decodeRot q ∈ rotRows q :=
  ((matching_row_iff (rotRows_filter_wellFormed q)).mpr rfl).1

/-- Whatever row of an index is performed, it answers ROT at the index and writes no register. -/
theorem exec_of_mem_rotRows {q : QuadIndex} {i : Instr} (hmem : i ∈ rotRows q) (s : State) :
    exec i s = .next { s with ret := some (.delta (rotOfIndex q)) } := by
  simp only [rotRows, List.mem_cons, List.not_mem_nil, or_false] at hmem
  obtain rfl | rfl | rfl | rfl := hmem <;> rfl

/-- The layout of q = pB, pA, sB, sA (R50). -/
theorem quadIndex_getLsbD (v p : Sample) :
    (quadIndex v p).getLsbD 3 = p.getLsbD 1 ∧ (quadIndex v p).getLsbD 2 = p.getLsbD 0 ∧
      (quadIndex v p).getLsbD 1 = v.getLsbD 1 ∧ (quadIndex v p).getLsbD 0 = v.getLsbD 0 :=
  sampleOfLines_getLsbD (pinB p) (pinA p) (pinB v) (pinA v)

/-- The table over the index and the function of the two samples are one (R50, R65). -/
theorem rotOfIndex_quadIndex (v p : Sample) : rotOfIndex (quadIndex v p) = rot v p := by
  obtain ⟨-, hpA, hsB, hsA⟩ := quadIndex_getLsbD v p
  rw [rotOfIndex_eq_bits, rot_eq_bits, hpA, hsB, hsA]

/-- Settles O20: every row answers ROT at its index, which the row's own pattern fixes; and the index of two samples
holds what ROT looks at. -/
theorem rotRowsAnswerTheirDelta : Obligations.RotRowsAnswerTheirDelta := by
  intro q s
  have hrow : ∀ i ∈ rotRows q, ∀ d, rotOfIndex q = d → exec i s = .next { s with ret := some (.delta d) } := by
    rintro i hmem d rfl
    exact exec_of_mem_rotRows hmem s
  refine ⟨fun hcw => hrow _ (by simp [rotRows]) _ ?_, fun hccw => hrow _ (by simp [rotRows]) _ ?_,
    fun hlow => hrow _ (by simp [rotRows]) _ ?_, fun hhigh => hrow _ (by simp [rotRows]) _ ?_,
    rotRows_filter_wellFormed q, fun v p => ?_⟩
  · simp_all [rotCw_wellFormed, rotOfIndex_eq_bits]
  · simp_all [rotCcw_wellFormed, rotOfIndex_eq_bits]
  · simp_all [rotNoneALow_wellFormed, rotOfIndex_eq_bits]
  · simp_all [rotNoneAHigh_wellFormed, rotOfIndex_eq_bits]
  · obtain ⟨hpB, hpA, hsB, hsA⟩ := quadIndex_getLsbD v p
    refine ⟨hpB, hpA, hsB, hsA, ?_⟩
    rw [exec_of_mem_rotRows (decodeRot_mem_rotRows _), rotOfIndex_quadIndex]

end Sys2Proof.Machine
end

section
/-! The rows of the button index (30_encoding.md R51; 40_decode.md R67), in the bits pBTN, sBTN. -/

namespace Sys2Proof.Machine

/-- The three rows of format BP at one index. -/
def pressRows (b : ButtonIndex) : List Instr := [.pressEdge b, .pressNoneLow b, .pressNoneHeld b]

theorem pressEdge_wellFormed (b : ButtonIndex) :
    (Instr.pressEdge b).wellFormed = (!b.getLsbD 1 && b.getLsbD 0) := by
  revert b
  decide

theorem pressNoneLow_wellFormed (b : ButtonIndex) : (Instr.pressNoneLow b).wellFormed = !b.getLsbD 0 := by
  revert b
  decide

theorem pressNoneHeld_wellFormed (b : ButtonIndex) :
    (Instr.pressNoneHeld b).wellFormed = (b.getLsbD 1 && b.getLsbD 0) := by
  revert b
  decide

/-- PRESS is 1 where the button is high now and was low (R67). -/
theorem pressOfIndex_eq_bits (b : ButtonIndex) : pressOfIndex b = (!b.getLsbD 1 && b.getLsbD 0) :=
  pressEdge_wellFormed b

/-- The row an index selects: released now; held; or pressed now (R51). -/
theorem decodePress_eq_bits (b : ButtonIndex) :
    decodePress b =
      if b.getLsbD 0 then (if b.getLsbD 1 then .pressNoneHeld b else .pressEdge b) else .pressNoneLow b := by
  revert b
  decide

/-- The three patterns are disjoint and cover every index: one row matches, the decoded one. -/
theorem pressRows_filter_wellFormed (b : ButtonIndex) :
    (pressRows b).filter Instr.wellFormed = [decodePress b] := by
  simp only [pressRows, List.filter, pressEdge_wellFormed, pressNoneLow_wellFormed, pressNoneHeld_wellFormed,
    decodePress_eq_bits]
  cases b.getLsbD 0 <;> cases b.getLsbD 1 <;> rfl

theorem decodePress_eq_of_mem_pressRows {b : ButtonIndex} {i : Instr} (hmem : i ∈ pressRows b)
    (hmatch : i.wellFormed = true) : decodePress b = i :=
  ((matching_row_iff (pressRows_filter_wellFormed b)).mp ⟨hmem, hmatch⟩).symm

theorem decodePress_mem_pressRows (b : ButtonIndex) : decodePress b ∈ pressRows b :=
  ((matching_row_iff (pressRows_filter_wellFormed b)).mpr rfl).1

/-- Whatever row of an index is performed, it answers PRESS at the index and writes no register. -/
theorem exec_of_mem_pressRows {b : ButtonIndex} {i : Instr} (hmem : i ∈ pressRows b) (s : State) :
    exec i s = .next { s with ret := some (.bit (pressOfIndex b)) } := by
  simp only [pressRows, List.mem_cons, List.not_mem_nil, or_false] at hmem
  obtain rfl | rfl | rfl := hmem <;> rfl

/-- The layout of b = pBTN, sBTN (R51). -/
theorem buttonIndex_getLsbD (v p : Sample) :
    (buttonIndex v p).getLsbD 1 = p.getLsbD 2 ∧ (buttonIndex v p).getLsbD 0 = v.getLsbD 2 := by
  have hlayout : ∀ high low : Bool, (BitVec.ofBool high ++ BitVec.ofBool low).getLsbD 1 = high ∧
      (BitVec.ofBool high ++ BitVec.ofBool low).getLsbD 0 = low := by decide
  exact hlayout (btn p) (btn v)

theorem pressOfIndex_buttonIndex (v p : Sample) :
    pressOfIndex (buttonIndex v p) = (!p.getLsbD 2 && v.getLsbD 2) := by
  obtain ⟨hpBtn, hsBtn⟩ := buttonIndex_getLsbD v p
  rw [pressOfIndex_eq_bits, hpBtn, hsBtn]

/-- Settles O21: every row answers PRESS at its index, which the row's own pattern fixes; and the index of two samples
holds what PRESS looks at. -/
theorem pressRowsAnswerTheirEvent : Obligations.PressRowsAnswerTheirEvent := by
  refine ⟨fun b s => ?_, fun v p s => ?_⟩
  · have hrow : ∀ i ∈ pressRows b, ∀ e, pressOfIndex b = e → exec i s = .next { s with ret := some (.bit e) } := by
      rintro i hmem e rfl
      exact exec_of_mem_pressRows hmem s
    refine ⟨fun hedge => hrow _ (by simp [pressRows]) _ ?_, fun hlow => hrow _ (by simp [pressRows]) _ ?_,
      fun hheld => hrow _ (by simp [pressRows]) _ ?_, pressRows_filter_wellFormed b⟩
    · simp_all [pressEdge_wellFormed, pressOfIndex_eq_bits]
    · simp_all [pressNoneLow_wellFormed, pressOfIndex_eq_bits]
    · simp_all [pressNoneHeld_wellFormed, pressOfIndex_eq_bits]
  · obtain ⟨hpBtn, hsBtn⟩ := buttonIndex_getLsbD v p
    refine ⟨press_eq_bits v p, hpBtn, hsBtn, ?_⟩
    rw [exec_of_mem_pressRows (decodePress_mem_pressRows _), pressOfIndex_buttonIndex]

end Sys2Proof.Machine
end

section
/-! Encoder and decoder are inverse to each other (30_encoding.md R49 to R55). -/

namespace Sys2Proof.Machine

theorem encode_tick (v : Sample) : encode (.tick v) = .ctl (wordOfInputs ⟨false, true, false, v⟩) := by
  simp only [encode, wordOfInputs]
  rfl

theorem encode_tickClr (v : Sample) : encode (.tickClr v) = .ctl (wordOfInputs ⟨false, true, true, v⟩) := by
  simp only [encode, wordOfInputs]
  rfl

/-- Settles O4, by cases on the operation: a commanded one is a step word laid out from its inputs, a row of ROT or
PRESS is the one row that its index matches, and every other entry carries the operation's own tag. -/
theorem decodeInvertsEncode : Obligations.DecodeInvertsEncode := by
  intro i hwf
  cases i
  case take form => cases form <;> rfl
  case tick v =>
    rw [encode_tick]
    exact decodeStepWord_wordOfInputs _
  case tickClr v =>
    rw [encode_tickClr]
    exact decodeStepWord_wordOfInputs _
  case rotCw q | rotCcw q | rotNoneALow q | rotNoneAHigh q =>
    exact decodeRot_eq_of_mem_rotRows (by simp [rotRows]) hwf
  case pressEdge b | pressNoneLow b | pressNoneHeld b =>
    exact decodePress_eq_of_mem_pressRows (by simp [pressRows]) hwf
  all_goals rfl

theorem encode_of_mem_rotRows {q : QuadIndex} {i : Instr} (hmem : i ∈ rotRows q) : encode i = .rot q := by
  simp only [rotRows, List.mem_cons, List.not_mem_nil, or_false] at hmem
  obtain rfl | rfl | rfl | rfl := hmem <;> rfl

theorem encode_of_mem_pressRows {b : ButtonIndex} {i : Instr} (hmem : i ∈ pressRows b) : encode i = .press b := by
  simp only [pressRows, List.mem_cons, List.not_mem_nil, or_false] at hmem
  obtain rfl | rfl | rfl := hmem <;> rfl

/-- The bits of a step word that R49 ignores: beside rst all the others, beside tick = 0 the sample. -/
theorem ignoredBitsZero_ctl (i : Inputs) :
    ignoredBitsZero (.ctl (wordOfInputs i)) =
      if i.rst then i == ⟨true, false, false, 0#4⟩ else i.tick || i.encIn == 0#4 := by
  obtain ⟨rst, tick, clr, encIn⟩ := i
  revert rst tick clr encIn
  decide

/-- The word that R55 writes for a command is the word it was read from, where no ignored bit is set. -/
theorem encode_commandOf {i : Inputs} (hzero : ignoredBitsZero (.ctl (wordOfInputs i)) = true) :
    encode (commandOf i) = .ctl (wordOfInputs i) := by
  rw [ignoredBitsZero_ctl] at hzero
  obtain ⟨rst, tick, clr, encIn⟩ := i
  cases rst
  case true =>
    have hreset := eq_of_beq hzero
    rw [hreset]
    rfl
  case false =>
    cases tick
    case true =>
      cases clr
      case false => exact encode_tick encIn
      case true => exact encode_tickClr encIn
    case false =>
      have hencIn : encIn = 0#4 := eq_of_beq hzero
      subst hencIn
      cases clr <;> rfl

/-- Settles O5, by cases on the entry's format: a step word is read back from its inputs, an index from the row it
selects, and the other entries from the operation's operands. -/
theorem encodeInvertsDecode : Obligations.EncodeInvertsDecode := by
  refine fun stim => ⟨decode_wellFormed stim, fun hzero => ?_⟩
  cases stim with
  | ctl w =>
    rw [← wordOfInputs_inputsOfWord w] at hzero ⊢
    exact (congrArg encode (decodeStepWord_wordOfInputs _)).trans (encode_commandOf hzero)
  | ctlKeep tick encIn =>
    cases tick with
    | true => rfl
    | false => exact congrArg (Stimulus.ctlKeep false) (eq_of_beq hzero).symm
  | out port => cases port <;> rfl
  | fx line v => cases line <;> rfl
  | riseA q => rfl
  | rot q => exact encode_of_mem_rotRows (decodeRot_mem_rotRows q)
  | press b => exact encode_of_mem_pressRows (decodePress_mem_pressRows b)

theorem decodeStepWord_ne_take (w : StepWord) (form : Option Sample) : decodeStepWord w ≠ .take form := by
  unfold decodeStepWord
  split_ifs <;> exact Instr.noConfusion

/-- TAKE is read from its own tag alone; tick = 1 keeps the sample (R96, R98). -/
theorem decode_eq_take {stim : Stimulus} {form : Option Sample} (h : decode stim = .take form) :
    ∃ tick encIn, stim = .ctlKeep tick encIn ∧ form = if tick then some encIn else none := by
  cases stim with
  | ctl w => exact absurd h (decodeStepWord_ne_take w form)
  | ctlKeep tick encIn => cases tick <;> cases h <;> exact ⟨_, _, rfl, rfl⟩
  | out port => cases port <;> cases h
  | fx line v => cases line <;> cases h
  | riseA q => cases h
  | rot q =>
    have hrow : decodeRot q = .take form := h
    have hmem : .take form ∈ rotRows q := hrow ▸ decodeRot_mem_rotRows q
    simp [rotRows] at hmem
  | press b =>
    have hrow : decodePress b = .take form := h
    have hmem : .take form ∈ pressRows b := hrow ▸ decodePress_mem_pressRows b
    simp [pressRows] at hmem

/-- On the wires TAKE's entry is the word with rst = 0 and clr = 1 (R49). -/
theorem wireWord_ctlKeep (tick : Bool) (encIn : Sample) :
    wireWord (.ctlKeep tick encIn) = some (wordOfInputs ⟨false, tick, true, encIn⟩) := rfl

/-- Settles O6: the only entries that present TAKE carry a word with rst = 0 and clr = 1, and the tick bit tells the
two forms apart. -/
theorem takeIsAClearOnTheWires : Obligations.TakeIsAClearOnTheWires := by
  refine ⟨fun stim h => ?_, fun stim v h => ?_, rfl, fun _ => rfl⟩
  · obtain ⟨tick, encIn, rfl, hform⟩ := decode_eq_take h
    cases tick
    case false => exact ⟨_, wireWord_ctlKeep _ _, decodeStepWord_wordOfInputs _⟩
    case true => cases hform
  · obtain ⟨tick, encIn, rfl, hform⟩ := decode_eq_take h
    cases tick
    case false => cases hform
    case true =>
      cases hform
      exact ⟨_, wireWord_ctlKeep _ _, decodeStepWord_wordOfInputs _⟩

/-- Settles O2, by running the decoder on each written word. -/
theorem writtenWordsDecode : Obligations.WrittenWordsDecode := by
  unfold Obligations.WrittenWordsDecode
  decide

end Sys2Proof.Machine
end

section
/-! The delta's code (30_encoding.md R47). -/

namespace Sys2Proof.Machine

theorem deltaOfCode_eq_some_iff (c : BitVec 2) (d : Delta) : deltaOfCode c = some d ↔ c = deltaCode d := by
  revert c
  cases d <;> decide

/-- Sign extension keeps the delta's value. -/
theorem deltaExtended_toInt (d : Delta) : (deltaExtended d).toInt = deltaInt d := by
  cases d <;> rfl

/-- In range, SEL saturates at both bounds (41_sampler.md R76). -/
theorem selNext_toInt_of_inRange {sel : SelWord} (hlow : 0 ≤ sel.toInt) (hhigh : sel.toInt ≤ 7) (d : Delta) :
    (selNext sel d).toInt = min 7 (max 0 (sel.toInt + deltaInt d)) := by
  obtain ⟨hdlow, hdhigh⟩ := deltaInt_bounds d
  rw [selNext_toInt]
  split_ifs <;> omega

/-- Where neither bound is passed, the SEL update is the 8-bit addition of the extended delta: the sum does not wrap. -/
theorem selNext_eq_add_deltaExtended {sel : SelWord} {d : Delta} (hlow : 0 ≤ sel.toInt) (hhigh : sel.toInt ≤ 7)
    (hsumLow : 0 ≤ sel.toInt + deltaInt d) (hsumHigh : sel.toInt + deltaInt d ≤ 7) :
    selNext sel d = sel + deltaExtended d := by
  apply BitVec.eq_of_toInt_eq
  calc (selNext sel d).toInt
      = sel.toInt + deltaInt d := by rw [selNext_toInt_of_inRange hlow hhigh]; omega
    _ = (sel.toInt + deltaInt d).bmod (2 ^ 8) := (Int.bmod_eq_of_le (by omega) (by omega)).symm
    _ = (sel + deltaExtended d).toInt := by rw [BitVec.toInt_add, deltaExtended_toInt]

/-- Settles O22: the codes are read off, and the sum is the lemma before. -/
theorem deltaCodesAndExtension : Obligations.DeltaCodesAndExtension :=
  ⟨rfl, rfl, rfl, deltaOfCode_eq_some_iff, rfl, rfl, rfl, rfl,
    fun _ _ hlow hhigh hsumLow hsumHigh => selNext_eq_add_deltaExtended hlow hhigh hsumLow hsumHigh⟩

end Sys2Proof.Machine
end

section
/-! Detents from rest (30_encoding.md R55; 40_decode.md R66; 41_sampler.md R80): each is one delta, so n of them are n
updates of SEL by that delta. -/

namespace Sys2Proof.Machine

/-- SEL after a run of TICKs: the deltas of the samples, taken in order. -/
theorem tickBlocks_sel (ss : List Sample) (b : Block) :
    (tickBlocks ss b).sel = (deltas b.prev ss).foldl selNext b.sel := by
  induction ss generalizing b with
  | nil => rfl
  | cons v vs ih => exact ih (tickBlock v b)

theorem times_succ (n : Nat) (samples : List Sample) : times (n + 1) samples = samples ++ times n samples := by
  simp [times, List.replicate_succ]

/-- In range, a delta of 0 keeps SEL. -/
theorem selNext_zero {sel : SelWord} (hlow : 0 ≤ sel.toInt) (hhigh : sel.toInt ≤ 7) : selNext sel .zero = sel := by
  apply BitVec.eq_of_toInt_eq
  rw [selNext_toInt_of_inRange hlow hhigh, deltaInt]
  omega

/-- In range, only the nonzero deltas of a sequence move SEL. -/
theorem foldl_selNext_filter (ds : List Delta) {sel : SelWord} (hlow : 0 ≤ sel.toInt) (hhigh : sel.toInt ≤ 7) :
    (ds.filter (· ≠ .zero)).foldl selNext sel = ds.foldl selNext sel := by
  induction ds generalizing sel with
  | nil => rfl
  | cons d ds ih =>
    obtain ⟨hlow', hhigh'⟩ := selNext_inRange sel d
    cases d with
    | zero => simpa [selNext_zero hlow hhigh] using ih hlow hhigh
    | cw => simpa using ih hlow' hhigh'
    | ccw => simpa using ih hlow' hhigh'

/-- Samples that from rest hold one nonzero delta, `d`, and no press, and that end at rest. -/
def IsDetent (d : Delta) (samples : List Sample) : Prop :=
  (deltas 0b0000#4 samples).filter (· ≠ .zero) = [d] ∧ (presses 0b0000#4 samples).any id = false ∧
    samples.getLast? = some 0b0000#4

/-- From rest and in range, one detent is one update of SEL and leaves the rest of the registers. -/
theorem tickBlocks_detent {d : Delta} {samples : List Sample} (hdetent : IsDetent d samples) {b : Block}
    (hrange : SelInRange b) (hrest : b.prev = 0b0000#4) :
    tickBlocks samples b = { b with sel := selNext b.sel d } := by
  obtain ⟨hdeltas, hpresses, hlast⟩ := hdetent
  obtain ⟨hlow, hhigh⟩ := selInRange_iff.mp hrange
  refine Block.eq_of_fields _ _ ?_ ?_ ?_
  · rw [tickBlocks_sel, hrest, ← foldl_selNext_filter _ hlow hhigh, hdeltas]
    rfl
  · rw [tickBlocks_latch, hrest, hpresses, Bool.or_false]
  · rw [tickBlocks_prev, hlast, hrest]
    rfl

theorem cwSamples_isDetent : IsDetent .cw cwSamples := by
  unfold IsDetent
  decide

theorem ccwSamples_isDetent : IsDetent .ccw ccwSamples := by
  unfold IsDetent
  decide

/-- `n` detents of one direction, from rest: SEL moves by `n` deltas and stops at the bound; LATCH and PREV stay. -/
theorem tickBlocks_times_detent {d : Delta} {samples : List Sample} (hdetent : IsDetent d samples) (n : Nat)
    (b : Block) (hrange : SelInRange b) (hrest : b.prev = 0b0000#4) :
    (tickBlocks (times n samples) b).sel.toInt = min 7 (max 0 (b.sel.toInt + n * deltaInt d)) ∧
      (tickBlocks (times n samples) b).latch = b.latch ∧ (tickBlocks (times n samples) b).prev = 0b0000#4 := by
  obtain ⟨hlow, hhigh⟩ := selInRange_iff.mp hrange
  induction n generalizing b with
  | zero => exact ⟨by simp [times]; omega, rfl, hrest⟩
  | succ n ih =>
    rw [times_succ, tickBlocks_append, tickBlocks_detent hdetent hrange hrest]
    obtain ⟨hlow', hhigh'⟩ := selNext_inRange b.sel d
    obtain ⟨hsel, hlatch, hprev⟩ := ih { b with sel := selNext b.sel d } ⟨hlow', hhigh'⟩ hrest hlow' hhigh'
    refine ⟨?_, hlatch, hprev⟩
    rw [hsel, selNext_toInt_of_inRange hlow hhigh]
    cases d <;> simp only [deltaInt] <;> push_cast <;> omega

theorem execAll_times_detent {d : Delta} {samples : List Sample} (hdetent : IsDetent d samples) (n : Nat)
    (s : State) (hrange : SelInRange s.block) (hrest : s.block.prev = 0b0000#4) :
    ∃ t, execAll (ticks (times n samples)) s = .next t ∧
      t.block.sel.toInt = min 7 (max 0 (s.block.sel.toInt + n * deltaInt d)) ∧ t.block.latch = s.block.latch ∧
      t.block.prev = 0b0000#4 := by
  obtain ⟨t, hrun, hblock⟩ := execAll_ticks (times n samples) s
  refine ⟨t, hrun, ?_⟩
  rw [hblock]
  exact tickBlocks_times_detent hdetent n s.block hrange hrest

/-- Settles O35: CW and CCW are detents of +1 and -1, and from a value in range each direction can meet one bound
only. -/
theorem detentsCountOnce : Obligations.DetentsCountOnce := by
  intro n s hrange hrest
  obtain ⟨hlow, hhigh⟩ := selInRange_iff.mp hrange
  obtain ⟨t, hrun, hsel, hkept⟩ := execAll_times_detent cwSamples_isDetent n s hrange hrest
  obtain ⟨u, hrun', hsel', hkept'⟩ := execAll_times_detent ccwSamples_isDetent n s hrange hrest
  refine ⟨⟨t, hrun, ?_, hkept⟩, ⟨u, hrun', ?_, hkept'⟩⟩
  · rw [hsel, deltaInt]
    omega
  · rw [hsel', deltaInt]
    omega

end Sys2Proof.Machine
end

section
/-! What each decode function looks at (40_decode.md R64, R65): bit A of both samples, and ROT bit B of the current one.
A mask that keeps a bit cannot be told from no mask by a function of that bit. -/

namespace Sys2Proof.Machine

theorem getLsbD_and_of_mask {n i : Nat} {mask : BitVec n} (hmask : mask.getLsbD i = true) (v : BitVec n) :
    (v &&& mask).getLsbD i = v.getLsbD i := by
  rw [BitVec.getLsbD_and, hmask, Bool.and_true]

theorem getLsbD_eq_of_and_eq {n i : Nat} {mask v v' : BitVec n} (hmask : mask.getLsbD i = true)
    (h : v &&& mask = v' &&& mask) : v.getLsbD i = v'.getLsbD i := by
  rw [← getLsbD_and_of_mask hmask v, h, getLsbD_and_of_mask hmask]

/-- RISE_A in bits (R64). -/
theorem riseA_eq_bits (v p : Sample) : riseA v p = (!p.getLsbD 0 && v.getLsbD 0) := rfl

/-- The pattern x0x1 in bits (R64). -/
theorem riseAOfIndex_eq_bits (q : QuadIndex) : riseAOfIndex q = (!q.getLsbD 2 && q.getLsbD 0) := by
  revert q
  decide

theorem exec_riseA (q : QuadIndex) (s : State) :
    exec (.riseA q) s = .next { s with ret := some (.bit (riseAOfIndex q)) } := rfl

/-- The table over the index and the function of the two samples are one (R50, R64). -/
theorem riseAOfIndex_quadIndex (v p : Sample) : riseAOfIndex (quadIndex v p) = riseA v p := by
  obtain ⟨-, hpA, -, hsA⟩ := quadIndex_getLsbD v p
  rw [riseAOfIndex_eq_bits, riseA_eq_bits, hpA, hsA]

theorem rot_congr {v v' p p' : Sample} (hA : v.getLsbD 0 = v'.getLsbD 0) (hB : v.getLsbD 1 = v'.getLsbD 1)
    (hpA : p.getLsbD 0 = p'.getLsbD 0) : rot v p = rot v' p' := by
  rw [rot_eq_bits, rot_eq_bits, hA, hB, hpA]

/-- On a rise of A either level of B gives a direction; without one there is none (R66 item (1)). -/
theorem rot_ne_zero_iff (v p : Sample) : rot v p ≠ .zero ↔ p.getLsbD 0 = false ∧ v.getLsbD 0 = true := by
  rw [rot_eq_bits]
  cases v.getLsbD 1 <;> simp

/-- With A high before, A cannot rise. -/
theorem rot_eq_zero_of_high {p : Sample} (hp : p.getLsbD 0 = true) (v : Sample) : rot v p = .zero := by
  simp [rot_eq_bits, hp]

theorem rot_self (v : Sample) : rot v v = .zero := by
  rw [rot_eq_bits, Bool.not_and_self]
  rfl

/-- The pattern x011 (R50, R66 item (2)). -/
theorem rotOfIndex_eq_cw_iff (q : QuadIndex) : rotOfIndex q = .cw ↔ q &&& 0b0111#4 = 0b0011#4 := by
  revert q
  decide

/-- The pattern x001 (R50, R66 item (2)). -/
theorem rotOfIndex_eq_ccw_iff (q : QuadIndex) : rotOfIndex q = .ccw ↔ q &&& 0b0111#4 = 0b0001#4 := by
  revert q
  decide

end Sys2Proof.Machine
end

section
/-! Field extractors, RISE_A and ROT, one evaluation at a time (40_decode.md R60 to R65). -/

namespace Sys2Proof.Machine

/-- Settles O17: each extractor answers its bit of the sample and commits the registers it found. -/
theorem extractorsReturnTheirBit : Obligations.ExtractorsReturnTheirBit :=
  fun _ _ => ⟨rfl, rfl, rfl, rfl⟩

/-- Settles O18: the operation answers the table over its index, which is the bits of R64, and the index of two
samples answers as RISE_A of them. -/
theorem riseAAnswersTheEdge : Obligations.RiseAAnswersTheEdge := by
  refine fun v p s => ⟨riseA_eq_bits v p, ?_, fun q => ?_⟩
  · rw [exec_riseA, riseAOfIndex_quadIndex, riseA_eq_bits]
  · rw [exec_riseA, riseAOfIndex_eq_bits]

/-- Settles O19: the definition in bits; and each mask keeps the bits that ROT looks at. -/
theorem rotFollowsItsDefinition : Obligations.RotFollowsItsDefinition := by
  refine fun v p => ⟨by simp [rot_eq_bits], rot_congr ?_ ?_ ?_, rot_congr rfl rfl ?_, rot_self v⟩
  all_goals exact (getLsbD_and_of_mask (by decide) _).symm

end Sys2Proof.Machine
end

section
/-! The laws of ROT over sequences of samples (40_decode.md R66). -/

namespace Sys2Proof.Machine

/-- Of the sample before a sequence, the deltas look at A alone. -/
theorem deltas_congr {p p' : Sample} (hA : p.getLsbD 0 = p'.getLsbD 0) (ss : List Sample) :
    deltas p ss = deltas p' ss := by
  cases ss with
  | nil => rfl
  | cons v vs => rw [deltas, deltas, rot_congr rfl rfl hA]

theorem numEvents_cons_zero (ds : List Delta) : numEvents (.zero :: ds) = numEvents ds := rfl

theorem numEvents_cons_of_ne_zero {d : Delta} (hd : d ≠ .zero) (ds : List Delta) :
    numEvents (d :: ds) = numEvents ds + 1 := by
  simp [numEvents, hd]

/-- The bound of R66 item (5), strengthened for the induction: a sequence that starts after A high has to bring A low
before its first event, and is charged for that. -/
theorem two_mul_numEvents_deltas_add_le (p : Sample) (ss : List Sample) :
    2 * numEvents (deltas p ss) + (p.getLsbD 0).toNat ≤ ss.length + 1 := by
  induction ss generalizing p with
  | nil => simpa [deltas, numEvents] using Bool.toNat_le (p.getLsbD 0)
  | cons v vs ih =>
    have hrest := ih v
    rw [deltas, List.length_cons]
    by_cases hrot : rot v p = .zero
    · have hp := Bool.toNat_le (p.getLsbD 0)
      rw [hrot, numEvents_cons_zero]
      omega
    · obtain ⟨hpA, hvA⟩ := (rot_ne_zero_iff v p).mp hrot
      rw [hvA, Bool.toNat_true] at hrest
      rw [numEvents_cons_of_ne_zero hrot, hpA, Bool.toNat_false]
      omega

/-- The deltas of CW, of CCW and of chatter on A with B high, from rest (R66 items (6), (7)). -/
theorem deltas_writtenSequences :
    deltas 0b0000#4 cwSamples = [.zero, .cw, .zero, .zero] ∧
      deltas 0b0000#4 ccwSamples = [.ccw, .zero, .zero, .zero] ∧
      deltas 0b0000#4 [0b0010#4, 0b0011#4, 0b0010#4, 0b0011#4] = [.zero, .cw, .zero, .cw] := by decide

/-- Settles O29: items (1) to (4) say what ROT looks at, an event leaves A high and so excludes one right after it, and
the written sequences are run from the one value of A that their premise allows. -/
theorem rotLawsOverSequences : Obligations.RotLawsOverSequences := by
  refine ⟨rot_ne_zero_iff, fun v p => ?_, rot_self, fun v v' p p' hv hpA => ?_, fun v p hrot t => ?_, fun p ss => ?_,
    fun p hp => ?_⟩
  · rw [← rotOfIndex_quadIndex]
    exact ⟨rotOfIndex_eq_cw_iff _, rotOfIndex_eq_ccw_iff _⟩
  · exact rot_congr (getLsbD_eq_of_and_eq (by decide) hv) (getLsbD_eq_of_and_eq (by decide) hv) hpA
  · obtain ⟨-, hvA⟩ := (rot_ne_zero_iff v p).mp hrot
    exact rot_eq_zero_of_high hvA t
  · exact (Nat.le_add_right _ _).trans (two_mul_numEvents_deltas_add_le p ss)
  · have hrest : ∀ ss, deltas p ss = deltas 0b0000#4 ss :=
      deltas_congr (getLsbD_eq_of_and_eq (mask := 0b0011#4) (by decide) hp)
    rw [hrest, hrest, hrest]
    exact deltas_writtenSequences

end Sys2Proof.Machine
end

section
/-! A held button (40_decode.md R67). -/

namespace Sys2Proof.Machine

/-- While the button stays high there is no press event. -/
theorem presses_of_held {p : Sample} (hp : p.getLsbD 2 = true) {held : List Sample}
    (hheld : ∀ u ∈ held, u.getLsbD 2 = true) : presses p held = List.replicate held.length false := by
  induction held generalizing p with
  | nil => rfl
  | cons v vs ih =>
    obtain ⟨hv, hvs⟩ := List.forall_mem_cons.mp hheld
    rw [presses, ih hv hvs, press_eq_bits, hp]
    rfl

/-- Settles O31: the first sample is high, so its event is the release before it; the rest are held. -/
theorem heldButtonPressesOnce : Obligations.HeldButtonPressesOnce := by
  intro p v held hheld
  obtain ⟨hv, hrest⟩ := List.forall_mem_cons.mp hheld
  rw [presses, presses_of_held hv hrest, press_eq_bits, hv, Bool.and_true]

end Sys2Proof.Machine
end

section
/-! The switch line (40_decode.md R63; 41_sampler.md R83). Dropping SW from a sample commutes with a TICK, so what a run
does to the other bits is a function of the other bits. -/

namespace Sys2Proof.Machine

/-- A sample with its switch line taken away. -/
def dropSw (v : Sample) : Sample := v &&& 0b0111#4

/-- The registers with PREV's switch line taken away. -/
def Block.dropSw (b : Block) : Block := { b with prev := Machine.dropSw b.prev }

theorem rot_dropSw (v p : Sample) : rot (dropSw v) (dropSw p) = rot v p :=
  rot_congr (getLsbD_and_of_mask (by decide) v) (getLsbD_and_of_mask (by decide) v)
    (getLsbD_and_of_mask (by decide) p)

theorem press_dropSw (v p : Sample) : press (dropSw v) (dropSw p) = press v p := by
  have hbtn (u : Sample) : (dropSw u).getLsbD 2 = u.getLsbD 2 := getLsbD_and_of_mask (by decide) u
  rw [press_eq_bits, press_eq_bits, hbtn, hbtn]

theorem tickBlock_dropSw (v : Sample) (b : Block) : tickBlock (dropSw v) b.dropSw = (tickBlock v b).dropSw := by
  simp only [tickBlock, Block.dropSw, rot_dropSw, press_dropSw]

theorem tickBlocks_dropSw (ss : List Sample) (b : Block) :
    tickBlocks (ss.map dropSw) b.dropSw = (tickBlocks ss b).dropSw := by
  induction ss generalizing b with
  | nil => rfl
  | cons v vs ih => rw [List.map_cons, tickBlocks_cons, tickBlocks_cons, tickBlock_dropSw, ih]

theorem Block.dropSw_eq_iff {b c : Block} :
    b.dropSw = c.dropSw ↔
      b.sel = c.sel ∧ b.latch = c.latch ∧ b.prev &&& 0b0111#4 = c.prev &&& 0b0111#4 := by
  simp only [Block.dropSw, Machine.dropSw, Block.mk.injEq]

/-- Settles O44: with the switch line dropped both runs are one and the same. -/
theorem switchInfluencesNothing : Obligations.SwitchInfluencesNothing := by
  intro ss ss' s s' hss hsel hlatch hprev
  have hsamples : ss.map dropSw = ss'.map dropSw := hss
  have hblock : s.block.dropSw = s'.block.dropSw := Block.dropSw_eq_iff.mpr ⟨hsel, hlatch, hprev⟩
  obtain ⟨t, hrun, ht⟩ := execAll_ticks ss s
  obtain ⟨t', hrun', ht'⟩ := execAll_ticks ss' s'
  have hend : t.block.dropSw = t'.block.dropSw := by
    rw [ht, ht', ← tickBlocks_dropSw, ← tickBlocks_dropSw, hsamples, hblock]
  exact ⟨t, t', hrun, hrun', Block.dropSw_eq_iff.mp hend⟩

end Sys2Proof.Machine
end

section
/-! The range of SEL as an invariant of the machine's steps (41_sampler.md R77). -/

namespace Sys2Proof.Machine

/-- Settles O24: a step is one operation on the same registers, and every operation keeps SEL in range. -/
theorem stepKeepsSelInRange : Obligations.StepKeepsSelInRange := by
  intro s t hs h
  obtain ⟨i, u, hexec, hblock, -⟩ := step_cases h
  rw [← hblock] at hs
  exact exec_keeps_selInRange hexec hs

end Sys2Proof.Machine
end

section
/-! One TICK (41_sampler.md R70 to R78): its whole effect, its steps in order, and the table of SEL. -/

namespace Sys2Proof.Machine

theorem exec_tick (v : Sample) (s : State) : exec (.tick v) s = .next (s.finish (tickBlock v s.block) none) := rfl

/-- Below its range SEL is set to 0, whatever the delta (R73). -/
theorem selNext_of_neg {sel : SelWord} (h : sel.toInt < 0) (d : Delta) : selNext sel d = 0#8 := if_pos h

/-- Above its range SEL is set to MAX, whatever the delta (R73). -/
theorem selNext_of_selMax_lt {sel : SelWord} (h : 7 < sel.toInt) (d : Delta) : selNext sel d = 7#8 := by
  apply BitVec.eq_of_toInt_eq
  rw [selNext_toInt, if_neg (by omega), if_pos h]
  rfl

/-- Settles O28: out of range SEL is clamped, and in range the update saturates. -/
theorem selFollowsItsTable : Obligations.SelFollowsItsTable :=
  fun v s => ⟨_, exec_tick v s, fun hneg => selNext_of_neg hneg _, fun hgt => selNext_of_selMax_lt hgt _,
    fun ⟨hlow, hhigh⟩ => selNext_toInt_of_inRange hlow hhigh _⟩

/-- Settles O27: the clamp of R73 takes no delta, and the other two registers do not ask for the range of SEL. -/
theorem oneTickRecovers : Obligations.OneTickRecovers := by
  refine fun v s => ⟨_, exec_tick v s, tickBlock_selInRange v s.block, fun hneg => ?_, fun hgt => ?_, ?_, rfl⟩
  · rw [State.finish_block, tickBlock_sel, selNext_of_neg hneg]
    rfl
  · rw [State.finish_block, tickBlock_sel, selNext_of_selMax_lt hgt]
    rfl
  · rw [State.finish_block, tickBlock_latch, latchNext_eq, press_eq_bits]

/-- The step word of a TICK is 010 and its sample (30_encoding.md R49). -/
theorem wordOfInputs_tick (v : Sample) : wordOfInputs ⟨false, true, false, v⟩ = 0b010#3 ++ v := by
  revert v
  decide

/-- The delta in bits and integers (40_decode.md R65). -/
theorem deltaInt_rot (v p : Sample) :
    deltaInt (rot v p) =
      if p.getLsbD 0 = false ∧ v.getLsbD 0 = true then (if v.getLsbD 1 = true then 1 else -1) else 0 := by
  by_cases hrise : p.getLsbD 0 = false ∧ v.getLsbD 0 = true
  · obtain ⟨hp, hv⟩ := hrise
    rw [if_pos ⟨hp, hv⟩, rot_eq_bits, hp, hv]
    cases v.getLsbD 1 <;> rfl
  · rw [if_neg hrise, not_not.mp (mt (rot_ne_zero_iff v p).mp hrise)]
    rfl

/-- Settles O12: the two witnesses are the delta and the SEL that the model computes from the old registers; in
integers they are the bits of R65 and the five tests of R73. -/
theorem tickHasItsWholeEffect : Obligations.TickHasItsWholeEffect := by
  refine ⟨fun v => ?_, fun v s => ⟨_, _, deltaInt_rot v s.block.prev, selNext_toInt s.block.sel _, exec_tick v s⟩⟩
  rw [← wordOfInputs_tick]
  exact decodeStepWord_wordOfInputs _

/-- Steps (b), (c), (d), each on the registers the one before left, are the parallel TICK (R75): neither (b) nor (c)
writes what the other or ROT or PRESS reads. -/
theorem tickBlock_eq_steps (v : Sample) (b : Block) : tickBlock v b = prevStep v (selStep v (latchStep v b)) := rfl

/-- Steps (b) and (c) write different registers and read neither's, so they change places (R75). -/
theorem selStep_latchStep_comm (v : Sample) (b : Block) :
    selStep v (latchStep v b) = latchStep v (selStep v b) := rfl

theorem press_self (v : Sample) : press v v = false := by
  rw [press_eq_bits, Bool.not_and_self]

/-- Settles O14: the steps compose to the TICK in either order of (b) and (c), and after step (d) the sample is
compared with itself. -/
theorem tickEqualsItsStepsInOrder : Obligations.TickEqualsItsStepsInOrder := by
  intro v s
  refine ⟨?_, ?_, rot_self v, press_self v⟩
  · rw [exec_tick, tickBlock_eq_steps]
  · rw [exec_tick, tickBlock_eq_steps, selStep_latchStep_comm]

end Sys2Proof.Machine
end

section
/-! A sample repeated (41_sampler.md R81). -/

namespace Sys2Proof.Machine

/-- The sample already in PREV holds no event, so a TICK with it keeps registers that are in range. -/
theorem tickBlock_prev_eq_self {b : Block} (h : SelInRange b) : tickBlock b.prev b = b := by
  obtain ⟨hlow, hhigh⟩ := selInRange_iff.mp h
  refine Block.eq_of_fields _ _ ?_ ?_ rfl
  · rw [tickBlock_sel, rot_self, selNext_zero hlow hhigh]
  · rw [tickBlock_latch, press_self, latchNext_eq, Bool.or_false]

theorem tickBlocks_replicate_prev (n : Nat) {b : Block} (h : SelInRange b) :
    tickBlocks (List.replicate n b.prev) b = b := by
  induction n with
  | zero => rfl
  | succ n ih => rw [List.replicate_succ, tickBlocks_cons, tickBlock_prev_eq_self h, ih]

/-- A TICK leaves its own sample in PREV and SEL in range, so the same TICK again does nothing. -/
theorem tickBlock_idem (v : Sample) (b : Block) : tickBlock v (tickBlock v b) = tickBlock v b :=
  tickBlock_prev_eq_self (tickBlock_selInRange v b)

/-- Settles O34: both functions of one sample twice are 0, so in range the TICK has the registers as a fixed point;
and after any TICK they are in range. -/
theorem repeatedSampleIsIdle : Obligations.RepeatedSampleIsIdle := by
  refine ⟨fun v => ⟨rot_self v, press_self v⟩, fun n s hrange => ?_, fun v s t h => ?_⟩
  · obtain ⟨t, hrun, hblock⟩ := execAll_ticks (List.replicate n s.block.prev) s
    rw [ticks, List.map_replicate] at hrun
    exact ⟨t, hrun, hblock.trans (tickBlocks_replicate_prev n hrange)⟩
  · rw [exec_tick] at h
    cases h
    rw [exec_tick, State.finish_block, tickBlock_idem]
    rfl

end Sys2Proof.Machine
end

section
/-! One event per input edge (41_sampler.md R82): the events of a sequence are those of its consecutive pairs. -/

namespace Sys2Proof.Machine

theorem deltas_eq_map_zip (p : Sample) (ss : List Sample) :
    deltas p ss = ((p :: ss).zip ss).map fun e => rot e.2 e.1 := by
  induction ss generalizing p with
  | nil => rfl
  | cons v vs ih => rw [deltas, ih, List.zip_cons_cons, List.map_cons]

theorem presses_eq_map_zip (p : Sample) (ss : List Sample) :
    presses p ss = ((p :: ss).zip ss).map fun e => press e.2 e.1 := by
  induction ss generalizing p with
  | nil => rfl
  | cons v vs ih => rw [presses, ih, List.zip_cons_cons, List.map_cons]

/-- ROT's events are the rises of A (40_decode.md R66 item (1)), as a test on a pair of samples. -/
theorem decide_rot_ne_zero (v p : Sample) : decide (rot v p ≠ .zero) = (!p.getLsbD 0 && v.getLsbD 0) := by
  rw [Bool.eq_iff_iff, decide_eq_true_iff, rot_ne_zero_iff, Bool.and_eq_true, Bool.not_eq_true']

/-- Settles O30: pair by pair, ROT is nonzero exactly on a rise of A, and PRESS is a rise of BTN. -/
theorem oneEventPerInputEdge : Obligations.OneEventPerInputEdge := by
  refine fun p ss => ⟨?_, ?_⟩
  · rw [numEvents, deltas_eq_map_zip, List.filter_map, List.length_map]
    exact congrArg List.length (List.filter_congr fun e _ => decide_rot_ne_zero e.2 e.1)
  · rw [presses_eq_map_zip, List.filter_map, List.length_map]
    rfl

end Sys2Proof.Machine
end

section
/-! Turns of one sign (41_sampler.md R79, R80): only the nonzero deltas move SEL, and where they are all alike SEL goes
to the bound on their side and stays there. -/

namespace Sys2Proof.Machine

/-- In range, one delta moves SEL by at most 1. -/
theorem selNext_bounds {sel : SelWord} (hlow : 0 ≤ sel.toInt) (hhigh : sel.toInt ≤ 7) (d : Delta) :
    (selNext sel d).toInt - sel.toInt ≤ 1 ∧ sel.toInt - (selNext sel d).toInt ≤ 1 := by
  obtain ⟨hdlow, hdhigh⟩ := deltaInt_bounds d
  rw [selNext_toInt_of_inRange hlow hhigh]
  omega

/-- `n` times one delta: SEL moves by `n` of them, saturating. -/
theorem foldl_selNext_replicate (n : Nat) (d : Delta) {sel : SelWord} (hlow : 0 ≤ sel.toInt) (hhigh : sel.toInt ≤ 7) :
    ((List.replicate n d).foldl selNext sel).toInt = min 7 (max 0 (sel.toInt + n * deltaInt d)) := by
  induction n generalizing sel with
  | zero =>
    rw [List.replicate_zero, List.foldl_nil]
    omega
  | succ n ih =>
    obtain ⟨hlow', hhigh'⟩ := selNext_inRange sel d
    rw [List.replicate_succ, List.foldl_cons, ih hlow' hhigh', selNext_toInt_of_inRange hlow hhigh]
    cases d <;> simp only [deltaInt] <;> push_cast <;> omega

/-- Where every nonzero delta is `d`, the nonzero deltas are that many times `d`. -/
theorem filter_ne_zero_eq_replicate {d : Delta} (hd : d ≠ .zero) {ds : List Delta}
    (hone : ∀ e ∈ ds, e ≠ .zero → e = d) : ds.filter (· ≠ .zero) = List.replicate (numOf d ds) d := by
  have hsame : ds.filter (· ≠ .zero) = ds.filter (· = d) :=
    List.filter_congr fun e he => decide_eq_decide.mpr ⟨hone e he, fun hed => hed ▸ hd⟩
  rw [hsame]
  exact List.eq_replicate_iff.mpr ⟨rfl, fun e he => of_decide_eq_true (List.mem_filter.mp he).2⟩

/-- A run of TICKs whose nonzero deltas are all `d`, from a value in range. -/
theorem tickBlocks_sel_toInt_of_one_sided {d : Delta} (hd : d ≠ .zero) {b : Block} (hrange : SelInRange b)
    {ss : List Sample} (hone : ∀ e ∈ deltas b.prev ss, e ≠ .zero → e = d) :
    (tickBlocks ss b).sel.toInt = min 7 (max 0 (b.sel.toInt + numOf d (deltas b.prev ss) * deltaInt d)) := by
  obtain ⟨hlow, hhigh⟩ := selInRange_iff.mp hrange
  rw [tickBlocks_sel, ← foldl_selNext_filter _ hlow hhigh, filter_ne_zero_eq_replicate hd hone,
    foldl_selNext_replicate _ _ hlow hhigh]

/-- Without a -1, the nonzero deltas are all +1, and only the upper bound can be met (R80). -/
theorem tickBlocks_sel_toInt_of_no_ccw {b : Block} (hrange : SelInRange b) {ss : List Sample}
    (hno : Delta.ccw ∉ deltas b.prev ss) :
    (tickBlocks ss b).sel.toInt = min (b.sel.toInt + numOf .cw (deltas b.prev ss)) 7 := by
  obtain ⟨hlow, -⟩ := selInRange_iff.mp hrange
  have hone : ∀ e ∈ deltas b.prev ss, e ≠ .zero → e = .cw := by
    rintro (- | - | -) he hne
    · rfl
    · exact absurd rfl hne
    · exact absurd he hno
  rw [tickBlocks_sel_toInt_of_one_sided (by decide) hrange hone, deltaInt]
  omega

/-- Without a +1, the nonzero deltas are all -1, and only the lower bound can be met (R80). -/
theorem tickBlocks_sel_toInt_of_no_cw {b : Block} (hrange : SelInRange b) {ss : List Sample}
    (hno : Delta.cw ∉ deltas b.prev ss) :
    (tickBlocks ss b).sel.toInt = max (b.sel.toInt - numOf .ccw (deltas b.prev ss)) 0 := by
  obtain ⟨-, hhigh⟩ := selInRange_iff.mp hrange
  have hone : ∀ e ∈ deltas b.prev ss, e ≠ .zero → e = .ccw := by
    rintro (- | - | -) he hne
    · exact absurd he hno
    · exact absurd rfl hne
    · rfl
  rw [tickBlocks_sel_toInt_of_one_sided (by decide) hrange hone, deltaInt]
  omega

/-- Settles O32: one delta moves SEL by at most 1, deltas of one sign are a run of equal ones, and the two orders of
-1 and +1 from 0 are evaluated. -/
theorem oneSidedTurnsSaturate : Obligations.OneSidedTurnsSaturate := by
  refine ⟨fun v s hrange => ?_, fun ss s hrange hno => ?_, fun ss s hrange hno => ?_, by decide, by decide⟩
  · obtain ⟨hlow, hhigh⟩ := selInRange_iff.mp hrange
    obtain ⟨hup, hdown⟩ := selNext_bounds hlow hhigh (rot v s.block.prev)
    exact ⟨_, exec_tick v s, hup, hdown, fun hlatch => by simp [hlatch], rfl⟩
  · obtain ⟨t, hrun, hblock⟩ := execAll_ticks ss s
    exact ⟨t, hrun, by rw [hblock, tickBlocks_sel_toInt_of_no_ccw hrange hno]⟩
  · obtain ⟨t, hrun, hblock⟩ := execAll_ticks ss s
    exact ⟨t, hrun, by rw [hblock, tickBlocks_sel_toInt_of_no_cw hrange hno]⟩

/-- At MAX, TICKs without a -1 leave SEL there (R79). -/
theorem tickBlocks_sel_of_max {b : Block} (hsel : b.sel = 7#8) {ss : List Sample}
    (hno : Delta.ccw ∉ deltas b.prev ss) : (tickBlocks ss b).sel = 7#8 := by
  have hmax : b.sel.toInt = 7 := by rw [hsel]; rfl
  apply BitVec.eq_of_toInt_eq
  calc (tickBlocks ss b).sel.toInt
      = min (b.sel.toInt + numOf .cw (deltas b.prev ss)) 7 :=
        tickBlocks_sel_toInt_of_no_ccw (selInRange_iff.mpr (by omega)) hno
    _ = 7 := by omega

/-- At 0, TICKs without a +1 leave SEL there (R79). -/
theorem tickBlocks_sel_of_zero {b : Block} (hsel : b.sel = 0#8) {ss : List Sample}
    (hno : Delta.cw ∉ deltas b.prev ss) : (tickBlocks ss b).sel = 0#8 := by
  have hzero : b.sel.toInt = 0 := by rw [hsel]; rfl
  apply BitVec.eq_of_toInt_eq
  calc (tickBlocks ss b).sel.toInt
      = max (b.sel.toInt - numOf .ccw (deltas b.prev ss)) 0 :=
        tickBlocks_sel_toInt_of_no_cw (selInRange_iff.mpr (by omega)) hno
    _ = 0 := by omega

/-- A TICK's SEL, from the values of SEL and of the delta it finds. -/
theorem exec_tick_sel {v : Sample} {s : State} {sel : SelWord} {d : Delta} (hsel : s.block.sel = sel)
    (hrot : rot v s.block.prev = d) : ∃ t, exec (.tick v) s = .next t ∧ t.block.sel = selNext sel d :=
  ⟨_, exec_tick v s, by rw [State.finish_block, tickBlock_sel, hsel, hrot]⟩

/-- Settles O33: deltas beyond the bound leave SEL at it, so the first one back is added to the bound itself. -/
theorem saturationIsNotOwedBack : Obligations.SaturationIsNotOwedBack := by
  refine ⟨fun ss s hsel hno => ?_, fun ss s hsel hno => ?_⟩
  · obtain ⟨t, hrun, hblock⟩ := execAll_ticks ss s
    have hmax : t.block.sel = 7#8 := by rw [hblock, tickBlocks_sel_of_max hsel hno]
    exact ⟨t, hrun, hmax, fun v hrot => exec_tick_sel hmax hrot⟩
  · obtain ⟨t, hrun, hblock⟩ := execAll_ticks ss s
    have hzero : t.block.sel = 0#8 := by rw [hblock, tickBlocks_sel_of_zero hsel hno]
    exact ⟨t, hrun, hzero, fun v hrot => exec_tick_sel hzero hrot⟩

end Sys2Proof.Machine
end

section
/-! Runs that TICKs stand in (20_memory.md R35): a run of TICKs hands its folded registers to whatever follows, and a
clear among the TICKs touches LATCH alone. -/

namespace Sys2Proof.Machine

/-- A run of TICKs in front of other operations. -/
theorem execAll_ticks_append (ss : List Sample) (s : State) :
    ∃ t, t.block = tickBlocks ss s.block ∧ ∀ ops, execAll (ticks ss ++ ops) s = execAll ops t := by
  obtain ⟨t, hrun, hblock⟩ := execAll_ticks ss s
  exact ⟨t, hblock, fun ops => execAll_append _ ops s t hrun⟩

theorem ticks_append (xs ys : List Sample) : ticks (xs ++ ys) = ticks xs ++ ticks ys := List.map_append

theorem filter_writesBlock_ticks (ss : List Sample) : (ticks ss).filter writesBlock = ticks ss := by
  simp [ticks, List.filter_eq_self, writesBlock, clears, sampleTaken]

/-- The operation clears LATCH and does nothing else to the registers. -/
def ClearsOnly (i : Instr) : Prop := ∀ s, ∃ t, exec i s = .next t ∧ t.block = clearLatch s.block

theorem clrLatch_clearsOnly : ClearsOnly .clrLatch := fun _ => ⟨_, rfl, rfl⟩

theorem take_clearsOnly : ClearsOnly (.take none) := fun _ => ⟨_, rfl, rfl⟩

theorem execAll_ticks_clear_ticks {i : Instr} (hi : ClearsOnly i) (xs ys : List Sample) (s : State) :
    ∃ t, execAll (ticks xs ++ i :: ticks ys) s = .next t ∧
      t.block = tickBlocks ys (clearLatch (tickBlocks xs s.block)) := by
  obtain ⟨u, hublock, hxs⟩ := execAll_ticks_append xs s
  obtain ⟨v, hclear, hvblock⟩ := hi u
  obtain ⟨t, hys, htblock⟩ := execAll_ticks ys v
  refine ⟨t, ?_, ?_⟩
  · rw [hxs, execAll_cons_of_exec hclear, hys]
  · rw [htblock, hvblock, hublock]

/-- Of a run's presses, those after the clear decide LATCH. -/
theorem tickBlocks_clear_tickBlocks_latch (xs ys : List Sample) (b : Block) :
    (tickBlocks ys (clearLatch (tickBlocks xs b))).latch = (presses (xs.getLast?.getD b.prev) ys).any id := by
  rw [tickBlocks_latch, clearLatch_latch, clearLatch_prev, tickBlocks_prev, Bool.false_or]

/-- SEL does not see where in a run LATCH was cleared. -/
theorem tickBlocks_clear_tickBlocks_sel (xs ys : List Sample) (b : Block) :
    (tickBlocks ys (clearLatch (tickBlocks xs b))).sel = (tickBlocks (xs ++ ys) b).sel := by
  rw [tickBlocks_append, tickBlocks_sel, tickBlocks_sel, clearLatch_sel, clearLatch_prev]

/-- PREV does not see where in a run LATCH was cleared. -/
theorem tickBlocks_clear_tickBlocks_prev (xs ys : List Sample) (b : Block) :
    (tickBlocks ys (clearLatch (tickBlocks xs b))).prev = (tickBlocks (xs ++ ys) b).prev := by
  rw [tickBlocks_append, tickBlocks_prev, tickBlocks_prev, clearLatch_prev]

end Sys2Proof.Machine
end

section
/-! The consumer's operations one at a time (42_consumer.md R90 to R98). -/

namespace Sys2Proof.Machine

theorem exec_hold (s : State) : exec .hold s = .next { s with ret := none } := rfl

theorem exec_clrLatch (s : State) : exec .clrLatch s = .next (s.finish (clearLatch s.block) none) := rfl

theorem exec_take_none (s : State) :
    exec (.take none) s = .next (s.finish (clearLatch s.block) (some (.bit s.block.latch))) := rfl

/-- A step word written as its control bits and its sample (30_encoding.md R49). -/
theorem decode_control_append {control : BitVec 3} {rst tick clr : Bool}
    (hcontrol : control = BitVec.ofBool rst ++ BitVec.ofBool tick ++ BitVec.ofBool clr) (encIn : Sample) :
    decode (.ctl (control ++ encIn)) = commandOf ⟨rst, tick, clr, encIn⟩ := by
  subst hcontrol
  exact decodeStepWord_wordOfInputs ⟨rst, tick, clr, encIn⟩

/-- Settles O9: HOLD commits the registers it found, and a step without stimulus is a HOLD. -/
theorem holdKeepsEveryRegister : Obligations.HoldKeepsEveryRegister :=
  ⟨exec_hold, decode_control_append (rst := false) (tick := false) (clr := false) rfl,
    fun s htrace => (step_of_trace_nil htrace).trans (exec_hold s)⟩

/-- Settles O13: the block of TICKCLR is defined as the tick of the cleared block, LATCH is then PRESS alone, and SEL
does not look at LATCH. -/
theorem tickClrClearsThenTicks : Obligations.TickClrClearsThenTicks :=
  ⟨decode_control_append (rst := false) (tick := true) (clr := true) rfl, fun v s =>
    ⟨s.finish (tickClrBlock v s.block) none, s.finish (tickBlock v s.block) none, rfl, rfl,
      tickClrBlock_latch s.block v, rfl, rfl, rfl, rfl, rfl, rfl⟩⟩

/-- Settles O15: each read answers its register and commits the registers it found. -/
theorem readsReturnTheirPort : Obligations.ReadsReturnTheirPort :=
  fun _ => ⟨rfl, rfl, rfl, rfl, rfl, rfl⟩

/-- While the button stays low there is no press event. -/
theorem presses_of_released (p : Sample) {released : List Sample} (hreleased : ∀ v ∈ released, v.getLsbD 2 = false) :
    presses p released = List.replicate released.length false := by
  induction released generalizing p with
  | nil => rfl
  | cons v vs ih =>
    obtain ⟨hv, hvs⟩ := List.forall_mem_cons.mp hreleased
    rw [presses, ih v hvs, press_eq_bits, hv, Bool.and_false]
    rfl

/-- TICKs without a press event keep LATCH. -/
theorem tickBlocks_latch_of_no_press {ss : List Sample} {b : Block}
    (hno : presses b.prev ss = List.replicate ss.length false) : (tickBlocks ss b).latch = b.latch := by
  simp [tickBlocks_latch, hno]

/-- TICKs with the button at one level leave that level in PREV. -/
theorem tickBlocks_prev_btn {ss : List Sample} {level : Bool} (hss : ∀ v ∈ ss, v.getLsbD 2 = level) {b : Block}
    (hb : ss = [] → b.prev.getLsbD 2 = level) : (tickBlocks ss b).prev.getLsbD 2 = level := by
  induction ss generalizing b with
  | nil => exact hb rfl
  | cons v vs ih =>
    obtain ⟨hv, hvs⟩ := List.forall_mem_cons.mp hss
    exact ih hvs fun _ => hv

/-- Settles O10: held and released samples hold no press event, so LATCH stays 0; the button's level in PREV is then
high exactly if no sample was released, and the press looks at that level. -/
theorem clrLatchClearsAndDoesNotRearm : Obligations.ClrLatchClearsAndDoesNotRearm := by
  refine ⟨fun _ => rfl, decode_control_append (rst := false) (tick := false) (clr := true) rfl,
    fun s held released pressed hs hheld hreleased hpressed => ?_⟩
  obtain ⟨t, hrun, ht⟩ := execAll_ticks held (s.finish (clearLatch s.block) none)
  obtain ⟨u, hrun', hu⟩ := execAll_ticks released t
  have htlatch : t.block.latch = false := by
    have hno : presses (clearLatch s.block).prev held = List.replicate held.length false :=
      presses_of_held hs hheld
    rw [ht, State.finish_block, tickBlocks_latch_of_no_press hno, clearLatch_latch]
  have hulatch : u.block.latch = false := by
    rw [hu, tickBlocks_latch_of_no_press (presses_of_released _ hreleased), htlatch]
  have htprev : t.block.prev.getLsbD 2 = true := by
    rw [ht]
    exact tickBlocks_prev_btn hheld fun _ => hs
  have hxlatch : (tickBlock pressed u.block).latch = !u.block.prev.getLsbD 2 := by
    rw [tickBlock_latch, hulatch, latchNext_eq, press_eq_bits, hpressed, Bool.false_or, Bool.and_true]
  refine ⟨t, u, _, (execAll_cons_of_exec (exec_clrLatch s) _).trans hrun, htlatch, hrun', hulatch,
    exec_tick pressed u, ?_⟩
  rw [State.finish_block, hxlatch, hu]
  by_cases hempty : released = []
  · simp [hempty, htprev]
  · rw [tickBlocks_prev_btn hreleased fun h => absurd h hempty]
    exact iff_of_true rfl hempty

/-- Settles O11: the first TAKE leaves LATCH 0, so the second finds what the TICKs between them set. -/
theorem takeReturnsAndClears : Obligations.TakeReturnsAndClears := by
  refine ⟨fun _ => rfl, rfl, fun s ss => ?_⟩
  obtain ⟨t, ht, hticks⟩ := execAll_ticks_append ss (s.finish (clearLatch s.block) (some (.bit s.block.latch)))
  have hlatch : t.block.latch = (presses s.block.prev ss).any id := by
    rw [ht, tickBlocks_latch]
    rfl
  refine ⟨t.finish (clearLatch t.block) (some (.bit t.block.latch)), ?_, by rw [State.finish_ret, hlatch]⟩
  rw [List.cons_append, execAll_cons_of_exec (exec_take_none s), hticks, execAll_cons_of_exec (exec_take_none t)]
  rfl

end Sys2Proof.Machine
end

section
/-! The pending press over whole runs (42_consumer.md R100 to R102). -/

namespace Sys2Proof.Machine

theorem clears_eq_false_iff {i : Instr} :
    clears i = false ↔ i ≠ .reset ∧ i ≠ .clrLatch ∧ (∀ t, i ≠ .take t) ∧ ∀ v, i ≠ .tickClr v := by
  cases i <;> simp [clears]

theorem sampleTaken_eq_some_iff {i : Instr} {v : Sample} :
    sampleTaken i = some v ↔ i = .tick v ∨ i = .tickClr v ∨ i = .take (some v) := by
  cases i <;> simp [sampleTaken]

/-- What does not clear leaves LATCH set (R101 item (1)). -/
theorem exec_latch_of_not_clears {i : Instr} {s t : State} (h : exec i s = .next t) (hc : clears i = false)
    (hs : s.block.latch = true) : t.block.latch = true := by
  rw [exec_latch h, hs, hc]
  rfl

/-- Settles O38, by induction on the operations. -/
theorem latchPersistsWithoutAClear : Obligations.LatchPersistsWithoutAClear := by
  intro ops
  induction ops with
  | nil => exact fun s hs _ => ⟨s, rfl, hs⟩
  | cons i is ih =>
    intro s hs hops
    obtain ⟨hi, his⟩ := List.forall_mem_cons.mp hops
    obtain ⟨t, ht⟩ := exec_completes i s
    rw [execAll_cons_of_exec ht]
    exact ih t (exec_latch_of_not_clears ht (clears_eq_false_iff.mpr hi) hs) his

/-- Settles O39: with LATCH 0 before, only the press term of the LATCH equation is left. -/
theorem latchIsSetOnlyByAPress : Obligations.LatchIsSetOnlyByAPress := by
  intro i s t h hs ht
  have hpress : (sampleTaken i).any (press · s.block.prev) = true := by
    rwa [exec_latch h, hs, Bool.false_and, Bool.false_or] at ht
  obtain ⟨v, hv, hrise⟩ := (Option.any_eq_true _ _).mp hpress
  refine ⟨v, sampleTaken_eq_some_iff.mp hv, ?_⟩
  simpa [press_eq_bits] using hrise

/-- Settles O40: the read drops out, and the clear comes after every press. -/
theorem clearAfterActionDropsPresses : Obligations.ClearAfterActionDropsPresses := by
  intro ss s
  obtain ⟨u, hu, hublock⟩ := execAll_ticks ss s
  obtain ⟨t, ht, htblock⟩ := execAll_ticks_clear_ticks clrLatch_clearsOnly ss [] (s.answer (.bit s.block.latch))
  refine ⟨t, u, ht, hu, ?_, ?_⟩
  · rw [htblock, hublock]
    rfl
  · rw [hublock, tickBlocks_latch]

theorem keepsClearRule_cons_of_exec {i : Instr} {s t : State} (h : exec i s = .next t) (seen : Bool)
    (is : List Instr) :
    keepsClearRule seen (i :: is) s =
      ((seen || !clearsUnread i) && keepsClearRule (seenAfter seen i s) is t) := by
  simp only [keepsClearRule, h]

theorem clearsFindLatchSet_cons_of_exec {i : Instr} {s t : State} (h : exec i s = .next t) (is : List Instr) :
    clearsFindLatchSet (i :: is) s = ((s.block.latch || !clearsUnread i) && clearsFindLatchSet is t) := by
  simp only [clearsFindLatchSet, h]

/-- A licence held after an operation was held before it, or is the 1 that it just read; and it cleared nothing. -/
theorem seenAfter_eq_true {seen : Bool} {i : Instr} {s : State} (h : seenAfter seen i s = true) :
    clears i = false ∧ (seen = true ∨ s.block.latch = true) := by
  unfold seenAfter at h
  split_ifs at h with hclears hread
  · exact ⟨Bool.eq_false_iff.mpr hclears, (Bool.or_eq_true _ _).mp h⟩
  · exact ⟨Bool.eq_false_iff.mpr hclears, .inl h⟩

/-- A licence to clear is held only while LATCH is 1 (R100 item (1), R101 item (1)). -/
theorem seenAfter_implies_latch {seen : Bool} {i : Instr} {s t : State} (h : exec i s = .next t)
    (hseen : seen = true → s.block.latch = true) (hafter : seenAfter seen i s = true) : t.block.latch = true := by
  obtain ⟨hc, hlatch⟩ := seenAfter_eq_true hafter
  exact exec_latch_of_not_clears h hc (hlatch.elim hseen id)

/-- Where a licence implies LATCH = 1 at the start, a run that keeps the rule clears unread only what is set. -/
theorem clearsFindLatchSet_of_keepsClearRule (ops : List Instr) (seen : Bool) (s : State)
    (hseen : seen = true → s.block.latch = true) (hkeeps : keepsClearRule seen ops s = true) :
    clearsFindLatchSet ops s = true := by
  induction ops generalizing seen s with
  | nil => rfl
  | cons i is ih =>
    obtain ⟨t, ht⟩ := exec_completes i s
    rw [keepsClearRule_cons_of_exec ht, Bool.and_eq_true, Bool.or_eq_true] at hkeeps
    obtain ⟨hnow, hlater⟩ := hkeeps
    rw [clearsFindLatchSet_cons_of_exec ht, Bool.and_eq_true, Bool.or_eq_true]
    exact ⟨hnow.imp_left hseen, ih _ t (seenAfter_implies_latch ht hseen) hlater⟩

/-- Settles O41: at the start no licence is held. -/
theorem clearRuleFindsLatchSet : Obligations.ClearRuleFindsLatchSet :=
  fun ops s => clearsFindLatchSet_of_keepsClearRule ops false s nofun

end Sys2Proof.Machine
end

section
/-! The block as a clocked circuit (42_consumer.md R99). -/

namespace Sys2Proof.Machine

/-- R99's equations are the priority of the inputs, register by register. -/
theorem cycle_eq_cycleCircuit (i : Inputs) (b : Block) : cycle i b = cycleCircuit i b := by
  obtain ⟨rst, tick, clr, encIn⟩ := i
  cases rst
  case true => rfl
  case false =>
    cases tick <;> cases clr <;> apply Block.eq_of_fields <;> simp [cycle, cycleCircuit, Bool.or_comm]

/-- The operation that the inputs command commits the registers of the cycle. -/
theorem exec_commandOf (i : Inputs) (s : State) :
    exec (commandOf i) s = .next { s with block := cycle i s.block, ret := none } := by
  obtain ⟨rst, tick, clr, encIn⟩ := i
  cases rst
  case true => rfl
  case false => cases tick <;> cases clr <;> rfl

/-- Settles O46: a step word commands by its inputs, and its layout is read back. -/
theorem cycleEqualsItsCircuit : Obligations.CycleEqualsItsCircuit := by
  refine ⟨cycle_eq_cycleCircuit, fun w s => ?_, inputsOfWord_wordOfInputs⟩
  rw [decodeStepWord_eq_commandOf, exec_commandOf]

/-- The operations that a cycle contributes end in its registers: HOLD's contribution is empty, TICKCLR's is its clear
and its tick. -/
theorem execAll_opsOfCycle (i : Inputs) (s : State) :
    ∃ t, execAll (opsOfCycle i) s = .next t ∧ t.block = cycle i s.block := by
  obtain ⟨rst, tick, clr, encIn⟩ := i
  cases rst
  case true => exact ⟨_, rfl, rfl⟩
  case false => cases tick <;> cases clr <;> exact ⟨_, rfl, rfl⟩

/-- Settles O47, by induction on the cycles. -/
theorem cyclesRefineTheTotalOrder : Obligations.CyclesRefineTheTotalOrder := by
  intro cs
  induction cs with
  | nil => exact fun s => ⟨s, rfl, rfl⟩
  | cons i is ih =>
    intro s
    obtain ⟨u, hu, hublock⟩ := execAll_opsOfCycle i s
    obtain ⟨t, ht, htblock⟩ := ih u
    refine ⟨t, ?_, ?_⟩
    · rw [List.flatMap_cons, execAll_append _ _ s u hu, ht]
    · rw [htblock, hublock, runCycles]

end Sys2Proof.Machine
end

section
/-! The informative consumer: its menu and its marker (42_consumer.md R105, R106). -/

namespace Sys2Proof.Machine

theorem needsRedraw_iff {marker : Int} {selection : SelWord} :
    needsRedraw marker selection = true ↔ marker ≠ selection.toInt := bne_iff_ne

/-- Settles O50: a legal sentinel is no value of SEL in range, and SEL's integer value determines SEL. -/
theorem unsetMarkerForcesRedraw : Obligations.UnsetMarkerForcesRedraw := by
  intro unset b drawn hlegal hrange
  obtain ⟨hlow, hhigh⟩ := selInRange_iff.mp hrange
  have hunset : unset ≠ b.sel.toInt := by
    rintro rfl
    obtain hneg | hgt := hlegal
    · omega
    · rw [selMax_eq] at hgt
      omega
  refine ⟨needsRedraw_iff.mpr hunset, needsRedraw_iff.mpr hunset, ?_⟩
  exact needsRedraw_iff.trans (not_congr BitVec.toInt_inj)

/-- Each of the table's values is in range, and what differs from all eight is not (R105). -/
theorem menuAction_isSome_iff (slot : SelWord) :
    (menuAction slot).isSome = true ↔ 0 ≤ slot.toInt ∧ slot.toInt ≤ 7 := by
  unfold menuAction
  split
  case h_9 =>
    simp only [Option.isSome_none, Bool.false_eq_true, false_iff, imp_false] at *
    omega
  all_goals
    simp only [Option.isSome_some, true_iff]
    omega

/-- Settles O51: the range is the table's, and the eight labels are read off. -/
theorem menuHasEightSlots : Obligations.MenuHasEightSlots :=
  ⟨fun b => (menuAction_isSome_iff b.sel).symm, rfl, rfl, rfl, rfl, rfl, rfl, rfl, rfl⟩

end Sys2Proof.Machine
end

section
/-! One iteration of the informative consumer's main loop (42_consumer.md R104). -/

namespace Sys2Proof.Machine

/-- The writing operations of an iteration cleared after the action, with TICKs in its gaps. -/
theorem filter_iterationOps_afterAction (a b c d : List Sample) :
    (iterationOps .afterAction true ⟨ticks a, ticks b, ticks c, ticks d⟩).filter writesBlock =
      ticks (a ++ b ++ c) ++ .clrLatch :: ticks d := by
  simp [iterationOps, latchLook, clearAfterAction, filter_writesBlock_ticks, ticks_append,
    writesBlock, clears, sampleTaken]

/-- The writing operations of an iteration cleared by TAKE before the action, with TICKs in its gaps. -/
theorem filter_iterationOps_beforeAction (a b c d : List Sample) :
    (iterationOps .beforeAction true ⟨ticks a, ticks b, ticks c, ticks d⟩).filter writesBlock =
      ticks a ++ .take none :: ticks (b ++ c ++ d) := by
  simp [iterationOps, latchLook, clearAfterAction, filter_writesBlock_ticks, ticks_append,
    writesBlock, clears, sampleTaken]

/-- A run whose writing operations are TICKs with one clear among them. -/
theorem execAll_of_filter_clear {ops : List Instr} {i : Instr} (hi : ClearsOnly i) {xs ys : List Sample}
    (hops : ops.filter writesBlock = ticks xs ++ i :: ticks ys) (s : State) :
    ∃ t, execAll ops s = .next t ∧ t.block = tickBlocks ys (clearLatch (tickBlocks xs s.block)) := by
  obtain ⟨t, u, ht, hu, hblock⟩ := execAll_filter_writesBlock ops s s rfl
  obtain ⟨w, hw, hwblock⟩ := execAll_ticks_clear_ticks hi xs ys s
  rw [hops, hw] at hu
  cases hu
  exact ⟨t, ht, hblock.trans hwblock⟩

/-- Settles O52: in both orders the writes are the TICKs of the four gaps with one clear among them; LATCH is decided
by those after it, SEL and PREV by all of them. -/
theorem clearOrderDecidesPressesInAction : Obligations.ClearOrderDecidesPressesInAction := by
  intro a b c d s
  obtain ⟨t, ht, htblock⟩ := execAll_of_filter_clear clrLatch_clearsOnly (filter_iterationOps_afterAction a b c d) s
  obtain ⟨u, hu, hublock⟩ := execAll_of_filter_clear take_clearsOnly (filter_iterationOps_beforeAction a b c d) s
  refine ⟨t, u, ht, ?_, hu, ?_, ?_, ?_⟩
  · rw [htblock, tickBlocks_clear_tickBlocks_latch]
  · rw [hublock, tickBlocks_clear_tickBlocks_latch]
  · rw [htblock, hublock, tickBlocks_clear_tickBlocks_sel, tickBlocks_clear_tickBlocks_sel]
    simp only [List.append_assoc]
  · rw [htblock, hublock, tickBlocks_clear_tickBlocks_prev, tickBlocks_clear_tickBlocks_prev]
    simp only [List.append_assoc]

theorem stateAfter_completes (ops : List Instr) (s : State) : ∃ t, stateAfter ops s = some t := by
  obtain ⟨t, ht, -⟩ := execAll_keeps (P := fun _ => True) (fun _ _ => trivial) ops s trivial
  exact ⟨t, stateAfter_eq_some.mpr ht⟩

/-- The consumer's decisions in one iteration, given the states that its operations pass through: `look`, before it
looks at LATCH, and `done`, at the end. The slot, if any, is what the second read of SEL returned. -/
theorem runIteration_eq_some (order : ClearOrder) (unset marker : Int) (g : Interleaving) {s look : State}
    (hlook : stateAfter g.afterDraw (s.answer (.sel s.block.sel)) = some look) :
    ∃ done slot, stateAfter (iterationOps order look.block.latch g) s = some done ∧
      slot.isSome = look.block.latch ∧
      runIteration order unset marker g s = some
        { state := done, drawn := s.block.sel, redrew := needsRedraw marker s.block.sel, acted := slot
          marker := markerAfter unset s.block.sel look.block.latch } := by
  obtain ⟨seen, hseen, hbit, -⟩ := stateAfter_latchLook order look
  have hdraw : stateAfter ([.rdSel] ++ g.afterDraw) s = some look :=
    (stateAfter_append _ (stateAfter_rdSel s)).trans hlook
  have hbefore : stateAfter ([.rdSel] ++ g.afterDraw ++ [latchLook order]) s = some seen :=
    (stateAfter_append _ hdraw).trans hseen
  have hsecond : stateAfter (g.afterDraw ++ [latchLook order]) (s.answer (.sel s.block.sel)) = some seen :=
    (stateAfter_append _ hlook).trans hseen
  cases hpending : look.block.latch with
  | false =>
    obtain ⟨done, hdone⟩ := stateAfter_completes g.inDelay seen
    refine ⟨done, none, ?_, rfl, ?_⟩
    · simpa [iterationOps] using (stateAfter_append g.inDelay hbefore).trans hdone
    · simp [runIteration, hsecond, hbit, hpending, hdone]
  | true =>
    obtain ⟨select, hselect⟩ := stateAfter_completes g.beforeSelect seen
    obtain ⟨done, hdone⟩ := stateAfter_completes (g.inAction ++ clearAfterAction order ++ g.inDelay)
      (select.answer (.sel select.block.sel))
    have hread : stateAfter (g.beforeSelect ++ [.rdSel]) seen = some (select.answer (.sel select.block.sel)) :=
      (stateAfter_append _ hselect).trans (stateAfter_rdSel select)
    refine ⟨done, some select.block.sel, ?_, rfl, ?_⟩
    · have hall := (stateAfter_append _ hbefore).trans ((stateAfter_append _ hread).trans hdone)
      simpa [iterationOps] using hall
    · simp [runIteration, hsecond, hbit, hpending, hread, hdone, -List.append_assoc]

/-- Settles O53: the operations before the look complete, and from there runIteration_eq_some says what the iteration
does. -/
theorem iterationPerformsItsOperations : Obligations.IterationPerformsItsOperations := by
  intro order unset marker g s
  obtain ⟨look, hlook⟩ := stateAfter_completes g.afterDraw (s.answer (.sel s.block.sel))
  obtain ⟨done, slot, hdone, hslot, hrun⟩ := runIteration_eq_some order unset marker g hlook
  exact ⟨_, look, done, hrun, stateAfter_eq_some.mp hlook, stateAfter_eq_some.mp hdone, rfl, rfl, rfl, hslot, rfl⟩

end Sys2Proof.Machine
end

section
/-! RESET (70_reset_and_hazards.md R140) and the first TICK after it (R148). -/

namespace Sys2Proof.Machine

theorem exec_reset (s : State) : exec .reset s = .next (s.finish Block.reset none) := rfl

/-- rst = 1 commands RESET, whatever the other inputs are (R140). -/
theorem commandOf_of_rst {i : Inputs} (hrst : i.rst = true) : commandOf i = .reset := if_pos hrst

theorem cycle_of_rst {i : Inputs} (hrst : i.rst = true) (b : Block) : cycle i b = Block.reset := if_pos hrst

/-- Settles O8: RESET commits Block.reset from any state, so also from its own result, and rst = 1 selects it in a step
word as in a cycle. -/
theorem resetHasItsWholeEffect : Obligations.ResetHasItsWholeEffect := by
  refine ⟨exec_reset, fun w hw => ?_, fun s t h => ?_, fun i b hrst => ?_⟩
  · exact (decodeStepWord_eq_commandOf w).trans (commandOf_of_rst hw)
  · rw [exec_reset] at h
    cases h
    rfl
  · rw [cycle_of_rst hrst]
    rfl

/-- From SEL = 0 and A low, one TICK: a +1 is counted, a -1 is dropped at the bound (41_sampler.md R73). -/
theorem selNext_zero_rot_of_low {p : Sample} (hp : p.getLsbD 0 = false) (v : Sample) :
    selNext 0#8 (rot v p) = if v.getLsbD 0 = true ∧ v.getLsbD 1 = true then 1#8 else 0#8 := by
  rw [rot_eq_bits, hp]
  cases v.getLsbD 0
  case false => rfl
  case true => cases v.getLsbD 1 <;> rfl

/-- Settles O37: the TICK runs on Block.reset, whose PREV has A and the button low. -/
theorem firstTickComparesWithZero : Obligations.FirstTickComparesWithZero := by
  intro v s
  refine ⟨_, (execAll_cons_of_exec (exec_reset s) _).trans (execAll_cons_of_exec (exec_tick v _) []), ?_, ?_, rfl⟩
  · exact selNext_zero_rot_of_low (p := Block.reset.prev) rfl v
  · simp [Block.reset, press_eq_bits]

end Sys2Proof.Machine
end

section
/-! Chatter on A with B high (70_reset_and_hazards.md R151): a bounce is a fall of A, which is no event, and a rise of
A, which is a +1. -/

namespace Sys2Proof.Machine

theorem rot_eq_zero_of_low {v : Sample} (hv : v.getLsbD 0 = false) (p : Sample) : rot v p = .zero := by
  rw [rot_eq_bits, hv, Bool.and_false]
  rfl

/-- Every bounce holds one +1 and nothing else, whatever the sample before the first was. -/
theorem deltas_chatter (n : Nat) (p : Sample) :
    deltas p (times n [0b0010#4, 0b0011#4]) = (List.replicate n [Delta.zero, .cw]).flatten := by
  induction n generalizing p with
  | zero => rfl
  | succ n ih =>
    have hfall : rot 0b0010#4 p = .zero := rot_eq_zero_of_low rfl p
    have hrise : rot 0b0011#4 0b0010#4 = .cw := rfl
    rw [times_succ, List.cons_append, List.cons_append, List.nil_append, deltas, deltas, ih, hfall, hrise]
    rfl

/-- Settles O36: the deltas hold no -1 and exactly `n` times +1, so SEL rises by `n` and saturates. -/
theorem chatterOnARunsAway : Obligations.ChatterOnARunsAway := by
  intro n s hrange
  have hno : Delta.ccw ∉ deltas s.block.prev (times n [0b0010#4, 0b0011#4]) := by
    simp [deltas_chatter]
  have hcount : numOf .cw (deltas s.block.prev (times n [0b0010#4, 0b0011#4])) = n := by
    simp [deltas_chatter, numOf, List.filter_flatten]
  obtain ⟨t, hrun, hblock⟩ := execAll_ticks (times n [0b0010#4, 0b0011#4]) s
  refine ⟨t, hrun, ?_⟩
  rw [hblock, tickBlocks_sel_toInt_of_no_ccw hrange hno, hcount]

end Sys2Proof.Machine
end

section
/-! The slot drawn and the slot acted on (70_reset_and_hazards.md R155 item (1)): the informative consumer reads SEL
once for each, and TICKs may come between the reads. -/

namespace Sys2Proof.Machine

/-- Deltas move SEL by at most as many steps as there are nonzero ones among them. -/
theorem foldl_selNext_bounds (ds : List Delta) {sel : SelWord} (hlow : 0 ≤ sel.toInt) (hhigh : sel.toInt ≤ 7) :
    (ds.foldl selNext sel).toInt - sel.toInt ≤ numEvents ds ∧
      sel.toInt - (ds.foldl selNext sel).toInt ≤ numEvents ds := by
  induction ds generalizing sel with
  | nil => simp [numEvents]
  | cons d ds ih =>
    rw [List.foldl_cons]
    by_cases hd : d = .zero
    · rw [hd, selNext_zero hlow hhigh, numEvents_cons_zero]
      exact ih hlow hhigh
    · obtain ⟨hlow', hhigh'⟩ := selNext_inRange sel d
      obtain ⟨hup, hdown⟩ := selNext_bounds hlow hhigh d
      obtain ⟨hrestUp, hrestDown⟩ := ih hlow' hhigh'
      rw [numEvents_cons_of_ne_zero hd]
      omega

/-- An iteration that finds a press pending acts on SEL as its second read finds it: `seen` is the state after the look
at LATCH, `select` the one at the second read. -/
theorem runIteration_of_pending {order : ClearOrder} (unset marker : Int) {g : Interleaving} {s seen select : State}
    (hseen : stateAfter (g.afterDraw ++ [latchLook order]) (s.answer (.sel s.block.sel)) = some seen)
    (hpending : bitReturned seen = some true) (hselect : stateAfter g.beforeSelect seen = some select) :
    ∃ r, runIteration order unset marker g s = some r ∧ r.drawn = s.block.sel ∧
      r.acted = some select.block.sel := by
  have hread : stateAfter (g.beforeSelect ++ [.rdSel]) seen = some (select.answer (.sel select.block.sel)) :=
    (stateAfter_append _ hselect).trans (stateAfter_rdSel select)
  obtain ⟨done, hdone⟩ := stateAfter_completes (g.inAction ++ clearAfterAction order ++ g.inDelay)
    (select.answer (.sel select.block.sel))
  refine ⟨{ state := done, drawn := s.block.sel, redrew := needsRedraw marker s.block.sel
            acted := some select.block.sel, marker := markerAfter unset s.block.sel true }, ?_, rfl, rfl⟩
  simp [runIteration, hseen, hpending, hread, hdone, -List.append_assoc]

/-- With TICKs in the two gaps between the reads and a press pending at the look, the slot acted on is SEL after those
TICKs: the look between them, which may clear LATCH, keeps SEL and PREV. -/
theorem runIteration_ticks_of_pending (order : ClearOrder) (unset marker : Int) (a b : List Sample)
    (inAction inDelay : List Instr) {s : State} (hpress : (s.block.latch || (presses s.block.prev a).any id) = true) :
    ∃ r, runIteration order unset marker ⟨ticks a, ticks b, inAction, inDelay⟩ s = some r ∧
      r.drawn = s.block.sel ∧ r.acted = some (tickBlocks (a ++ b) s.block).sel := by
  obtain ⟨look, hlook, hlookBlock⟩ := execAll_ticks a (s.answer (.sel s.block.sel))
  rw [State.answer_block] at hlookBlock
  obtain ⟨seen, hseen, hbit, hsel, hprev⟩ := stateAfter_latchLook order look
  obtain ⟨select, hselect, hselectBlock⟩ := execAll_ticks b seen
  have hpending : bitReturned seen = some true := by
    rw [hbit, hlookBlock, tickBlocks_latch, hpress]
  have hslot : select.block.sel = (tickBlocks (a ++ b) s.block).sel := by
    rw [hselectBlock, tickBlocks_append, ← hlookBlock, tickBlocks_sel, tickBlocks_sel, hsel, hprev]
  rw [← hslot]
  exact runIteration_of_pending unset marker (g := ⟨ticks a, ticks b, inAction, inDelay⟩)
    ((stateAfter_append _ (stateAfter_eq_some.mpr hlook)).trans hseen) hpending (stateAfter_eq_some.mpr hselect)

/-- Settles O54: the slot acted on is SEL after the TICKs of both gaps, and their deltas bound how far that is from the
slot drawn. -/
theorem actionSlotDriftsByTheDeltasBetweenReads : Obligations.ActionSlotDriftsByTheDeltasBetweenReads := by
  intro order unset marker a b inAction inDelay s hrange hpress
  obtain ⟨hlow, hhigh⟩ := selInRange_iff.mp hrange
  obtain ⟨r, hiteration, hdrawn, hacted⟩ :=
    runIteration_ticks_of_pending order unset marker a b inAction inDelay hpress
  obtain ⟨u, hrun, hblock⟩ := execAll_ticks (a ++ b) s
  refine ⟨r, _, u, hiteration, hacted, hrun, by rw [hblock], ?_⟩
  rw [hdrawn, tickBlocks_sel]
  exact foldl_selNext_bounds _ hlow hhigh

/-- From slot 2, TICKs that hold one +1 between the two reads and a press pending: the label of slot 2 is shown and the
action of slot 3 is run (42_consumer.md R105). -/
theorem runIteration_label_and_action {a b : List Sample} {s : State} (hlatch : s.block.latch = true)
    (hsel : s.block.sel = 0x02#8) (hdeltas : deltas s.block.prev (a ++ b) = [.cw]) (order : ClearOrder)
    (unset marker : Int) :
    ∃ r, runIteration order unset marker ⟨ticks a, ticks b, [], []⟩ s = some r ∧
      menuLabel r.drawn = some "TURN ON LEDS" ∧ r.acted.bind menuAction = some .flashLeds := by
  have hpress : (s.block.latch || (presses s.block.prev a).any id) = true := by rw [hlatch, Bool.true_or]
  obtain ⟨r, hiteration, hdrawn, hacted⟩ := runIteration_ticks_of_pending order unset marker a b [] [] hpress
  refine ⟨r, hiteration, ?_, ?_⟩
  · rw [hdrawn, hsel]
    rfl
  · rw [hacted, tickBlocks_sel, hdeltas, hsel]
    rfl

/-- Settles O55: the TICK sees a rise of A with B high, and whichever gap it falls in, it is the one between the two
reads. -/
theorem labelAndActionMayDiffer : Obligations.LabelAndActionMayDiffer := by
  intro order unset marker s hlatch hsel hprev g hg
  have hdeltas : deltas s.block.prev [0b0011#4] = [.cw] := by
    rw [hprev]
    rfl
  obtain rfl | rfl := List.mem_pair.mp hg
  · exact runIteration_label_and_action (a := [0b0011#4]) (b := []) hlatch hsel hdeltas order unset marker
  · exact runIteration_label_and_action (a := []) (b := [0b0011#4]) hlatch hsel hdeltas order unset marker

end Sys2Proof.Machine
end
